-- ==== Sys2Proof/Word.lean ====
section
/-! DEFINITION. The word types of the CVS block: port words, reply bytes and raw words (R6, R8). -/

namespace Sys2Proof

/-- One reply byte, a checksum, or one byte operand (R6: CRC_WIDTH 8). -/
abbrev Byte := BitVec 8

/-- A RawWord: 16 bits, unsigned (R6, R13). -/
abbrev RawWord := BitVec 16

/-- One word of the host port (R6: REG_WIDTH 32; R61). -/
abbrev Word := BitVec 32

end Sys2Proof
end

