-- ==== Sys2Proof/Config.lean ====
section
/-! DEFINITION. What is fixed for every instance of the block (R6, R20) and the one parameter the spec leaves open. -/

namespace Sys2Proof.Config

/-- REG_SPACE: the port has 32 words, byte offsets 0x000 to 0x07F (R6, R61). -/
def portBytes : Nat := 0x80

/-- CRC_INIT (R6, R160). -/
def crcInit : Byte := 0xFF#8

/-- CRC_POLY, as the pseudocode of R160 uses it (R6). -/
def crcPoly : Byte := 0x31#8

/-- CVS_BASE, the host address of offset 0x000: "OPEN: a model argument" (R6, R231, D41).
It has no body, so no claim can lean on a value of it (log 9). -/
opaque cvsBase : Nat

end Sys2Proof.Config
end

