-- ==== Sys2Proof/Syntax.lean ====
section
/-! DEFINITION. The instructions of the block: the eleven commands and the push (opcode_table.json; R80, R84). -/

namespace Sys2Proof

/-- One constructor per row of opcode_table.json.
Operands are held as the encoding gives them (R83): the group count of VALIDATE and the mode of SETMODE are their
two-bit fields, and `Instr.wellFormed` says which values are legal. -/
inductive Instr where
  /-- NOP (R202). -/
  | nop
  /-- CRC8 hi lo (R161): `hi` is the first byte in transmission order. -/
  | crc8 (hi lo : Byte)
  /-- CONV_T r (R184). -/
  | convT (r : RawWord)
  /-- CONV_H r (R185). -/
  | convH (r : RawWord)
  /-- VALIDATE n (R128). -/
  | validate (n : BitVec 2)
  /-- FLUSH (R121). -/
  | flush
  /-- OPEN (R200). -/
  | openSession
  /-- CLOSE (R201). -/
  | closeSession
  /-- SETMODE m (R102). -/
  | setMode (m : BitVec 2)
  /-- READ_STATUS (R129). -/
  | readStatus
  /-- READ_TH (R130). -/
  | readTH
  /-- PUSH b (R120): a write of a word whose low byte is `b` to RXDATA. -/
  | push (b : Byte)
  deriving DecidableEq, Repr

/-- The two ports a host write of which is an instruction (R80): CMD takes the C-format, RXDATA the P-format. -/
inductive InstrPort where
  | cmd
  | rxdata
  deriving DecidableEq, Repr

/-- The port an instruction is written to (R80, R89). -/
def Instr.port : Instr → InstrPort
  | .nop | .crc8 _ _ | .convT _ | .convH _ | .validate _ | .flush | .openSession | .closeSession
  | .setMode _ | .readStatus | .readTH => .cmd
  | .push _ => .rxdata

end Sys2Proof
end

