-- ==== Sys2Proof/WellFormed.lean ====
section
/-! DEFINITION. The operand values the encoding admits (R83, R85). -/

namespace Sys2Proof

/-- The legal group counts of the N form: "n in {1, 2}" (R83). -/
def groupCountOk (n : BitVec 2) : Bool := n == 1#2 || n == 2#2

/-- The legal modes of the M form: "m in {0, 1, 2}" (R83). -/
def modeFieldOk (m : BitVec 2) : Bool := m != 3#2

/-- Every operand has a value its form admits (R83). The forms Z, B, W and the push admit every value. -/
def Instr.wellFormed : Instr → Bool
  | .validate n => groupCountOk n
  | .setMode m => modeFieldOk m
  | .nop | .crc8 _ _ | .convT _ | .convH _ | .flush | .openSession | .closeSession | .readStatus | .readTH
  | .push _ => true

end Sys2Proof
end

