-- ==== Sys2Proof/Decode.lean ====
section
/-! DEFINITION. Decoding of the words written to CMD and RXDATA, total on every word, and the encoder
(30_encoding.md). Depends on the word and the port it is written to alone, never on the state (R80, R85). -/

namespace Sys2Proof

/-! ### Fields of a command word (R82, R83) -/

/-- RSV, bits [31:24] (R82). -/
def rsvField (c : Word) : Byte := c.extractLsb' 24 8

/-- IMM16, bits [23:8] (R82); the operand of the W form (R83). -/
def immField (c : Word) : RawWord := c.extractLsb' 8 16

/-- OP, bits [7:0] (R82). -/
def opField (c : Word) : Byte := c.extractLsb' 0 8

/-- The first byte of the B form, IMM16[15:8], command bits [23:16] (R83). -/
def immHigh (c : Word) : Byte := c.extractLsb' 16 8

/-- The second byte of the B form, IMM16[7:0], command bits [15:8] (R83). -/
def immLow (c : Word) : Byte := c.extractLsb' 8 8

/-- The operand of the N and M forms, IMM16[1:0], command bits [9:8] (R83). -/
def immPair (c : Word) : BitVec 2 := c.extractLsb' 8 2

/-- IMM16[15:2], command bits [23:10], which the N and M forms require to be zero (R83). -/
def immUnused (c : Word) : BitVec 14 := c.extractLsb' 10 14

/-! ### The opcode map (R84) -/

/-- The five operand forms (R83). -/
inductive OperandForm where
  | z | b | w | n | m
  deriving DecidableEq, Repr

/-- The eleven assigned opcodes (R84). -/
inductive Opcode where
  | nop | crc8 | convT | convH | validate | flush | openSession | closeSession | setMode | readStatus | readTH
  deriving DecidableEq, Repr

/-- The byte assigned to each opcode (R84). -/
def Opcode.byte : Opcode → Byte
  | .nop => 0x00#8
  | .crc8 => 0x01#8
  | .convT => 0x02#8
  | .convH => 0x03#8
  | .validate => 0x04#8
  | .flush => 0x05#8
  | .openSession => 0x10#8
  | .closeSession => 0x11#8
  | .setMode => 0x12#8
  | .readStatus => 0x13#8
  | .readTH => 0x14#8

/-- The operand form of each opcode (R83, R84). -/
def Opcode.form : Opcode → OperandForm
  | .nop | .flush | .openSession | .closeSession | .readStatus | .readTH => .z
  | .crc8 => .b
  | .convT | .convH => .w
  | .validate => .n
  | .setMode => .m

/-- The opcode map read from the byte; 0x06-0x0F and 0x15-0xFF are unassigned (R84). -/
def opcodeOf (op : Byte) : Option Opcode :=
  if op = 0x00#8 then some .nop
  else if op = 0x01#8 then some .crc8
  else if op = 0x02#8 then some .convT
  else if op = 0x03#8 then some .convH
  else if op = 0x04#8 then some .validate
  else if op = 0x05#8 then some .flush
  else if op = 0x10#8 then some .openSession
  else if op = 0x11#8 then some .closeSession
  else if op = 0x12#8 then some .setMode
  else if op = 0x13#8 then some .readStatus
  else if op = 0x14#8 then some .readTH
  else none

/-! ### Decoding -/

/-- Why a command word is ILLEGAL: the list of R86. The block does not record which (R220); where several hold, the
decoder names the first it meets (DESIGN CHOICE, safe: no state depends on it; log 7). -/
inductive IllegalReason where
  /-- RSV != 0. -/
  | reservedBits
  /-- An unassigned opcode. -/
  | unassignedOpcode
  /-- A nonzero IMM16 in a Z-form command. -/
  | nonzeroImmediate
  /-- Nonzero IMM16[15:2] in an N-form or M-form command. -/
  | nonzeroUnusedBits
  /-- n = 0 or n = 3 in VALIDATE. -/
  | badGroupCount
  /-- m = 3 in SETMODE. -/
  | badMode
  deriving DecidableEq, Repr

/-- What a written word stands for. -/
inductive Decoded where
  | instr (i : Instr)
  | illegal (why : IllegalReason)
  deriving DecidableEq, Repr

/-- A Z-form command has IMM16 = 0 (R83). -/
def decodeZ (i : Instr) (c : Word) : Decoded :=
  if immField c = 0#16 then .instr i else .illegal .nonzeroImmediate

/-- Reads the operand of an assigned opcode in its form (R83). -/
def decodeOperand (o : Opcode) (c : Word) : Decoded :=
  match o with
  | .nop => decodeZ .nop c
  | .crc8 => .instr (.crc8 (immHigh c) (immLow c))
  | .convT => .instr (.convT (immField c))
  | .convH => .instr (.convH (immField c))
  | .validate =>
    if immUnused c ≠ 0#14 then .illegal .nonzeroUnusedBits
    else if groupCountOk (immPair c) then .instr (.validate (immPair c)) else .illegal .badGroupCount
  | .flush => decodeZ .flush c
  | .openSession => decodeZ .openSession c
  | .closeSession => decodeZ .closeSession c
  | .setMode =>
    if immUnused c ≠ 0#14 then .illegal .nonzeroUnusedBits
    else if modeFieldOk (immPair c) then .instr (.setMode (immPair c)) else .illegal .badMode
  | .readStatus => decodeZ .readStatus c
  | .readTH => decodeZ .readTH c

/-- Decodes a C-format word written to CMD (R81, R82, R84, R86). -/
def decodeCommand (c : Word) : Decoded :=
  if rsvField c ≠ 0#8 then .illegal .reservedBits
  else match opcodeOf (opField c) with
    | none => .illegal .unassignedOpcode
    | some o => decodeOperand o c

/-- Decodes a P-format word written to RXDATA: the byte is d[7:0], d[31:8] are ignored, no word is illegal (R87). -/
def decodePush (d : Word) : Decoded := .instr (.push (d.extractLsb' 0 8))

/-- Decodes a word by the port it is written to (R80). -/
def decode (p : InstrPort) (w : Word) : Decoded :=
  match p with
  | .cmd => decodeCommand w
  | .rxdata => decodePush w

/-! ### Encoding -/

/-- A C-format word {RSV = 0, IMM16, OP} (R82). -/
def commandWord (o : Opcode) (imm : RawWord) : Word := 0#8 ++ imm ++ o.byte

/-- The word of an instruction (R82, R83, R89); the push word is zext_32(b). It is written to `Instr.port`. -/
def encode : Instr → Word
  | .nop => commandWord .nop 0#16
  | .crc8 hi lo => commandWord .crc8 (hi ++ lo)
  | .convT r => commandWord .convT r
  | .convH r => commandWord .convH r
  | .validate n => commandWord .validate (n.setWidth 16)
  | .flush => commandWord .flush 0#16
  | .openSession => commandWord .openSession 0#16
  | .closeSession => commandWord .closeSession 0#16
  | .setMode m => commandWord .setMode (m.setWidth 16)
  | .readStatus => commandWord .readStatus 0#16
  | .readTH => commandWord .readTH 0#16
  | .push b => b.setWidth 32

/-! ### The rows of opcode_table.json -/

/-- The port a row of opcode_table.json is written to, read from how many bits the row gives: every C-format row gives all
32 bits of its word, and PUSH, the one P-format row, only its byte `b` in bits [7:0] (DESIGN CHOICE, safe; log 13). -/
def tableRowPort (nbits : Nat) : InstrPort := if nbits ≤ 8 then .rxdata else .cmd

/-- The word of a table row: the bits above `nbits` are zero. -/
def tableRowWord (nbits w : Nat) : Word := BitVec.ofNat 32 (w % 2 ^ nbits)

/-- The instruction the decoder reads from a word of the opcode table, `none` where it is ILLEGAL. -/
def decodeTableWord (nbits w : Nat) : Option Instr :=
  match decode (tableRowPort nbits) (tableRowWord nbits w) with
  | .instr i => some i
  | .illegal _ => none

end Sys2Proof
end

