-- ==== Sys2Proof/Machine/State.lean ====
section
/-! DEFINITION. The state of the block (10_state.md), what the host presents to it (20_memory.md), and why a step stops. -/

namespace Sys2Proof.Machine

/-- The accuracy mode (R24): "enumerated variant {High, Medium, Low}".
The register's value 3 is "never held" and so has no constructor (log 4). -/
inductive Mode where
  | high
  | medium
  | low
  deriving DecidableEq, Repr

/-- The stored fields of ERR (R34); the reserved bits, "always 0", are not stored (log 5). -/
structure ErrRecord where
  /-- CODE, ERR[3:0]. -/
  code : BitVec 4
  /-- GROUP, ERR[5:4]. -/
  group : BitVec 2
  /-- RECV, ERR[15:8]. -/
  received : Byte
  /-- CALC, ERR[23:16]. -/
  computed : Byte
  deriving DecidableEq, Repr

/-- The reply buffer BUF[0..5] (R27). -/
abbrev ReplyBuffer := Vector Byte 6

/-! ### What the host presents -/

/-- A read, or a write carrying 32 data bits (R61). -/
inductive Direction where
  | read
  | write (data : Word)
  deriving DecidableEq, Repr

/-- How much an access covers. The port carries whole words only (R61); the other widths are refused (R62, D2). -/
inductive AccessWidth where
  | byte
  | half
  | word
  | multiWord
  deriving DecidableEq, Repr

/-- One access of the host port, at a byte offset (R61, R62; log 7). -/
structure Access where
  dir : Direction
  offset : Nat
  width : AccessWidth
  deriving DecidableEq, Repr

/-- What the host does next. -/
inductive HostEvent where
  /-- An access of the port (R66). -/
  | access (a : Access)
  /-- Reset, "an instant between two accesses" (R250, R253). -/
  | reset
  /-- An access presented while reset is applied, which the host must not do (R253; log 6). -/
  | accessInReset (a : Access)
  deriving DecidableEq, Repr

/-! ### The state -/

/-- Every stored bit of the block (R23-R34, R42), and the host's side of the port. Plain data. -/
structure State where
  /-- EN, a session is open (R23). -/
  en : Bool
  /-- MODE (R24). -/
  mode : Mode
  /-- RXCNT, bytes pushed since the last consume (R25). -/
  rxcnt : BitVec 3
  /-- OVF, a push arrived with RXCNT = 6 (R26). -/
  ovf : Bool
  /-- BUF[0..5] (R27). -/
  buf : ReplyBuffer
  /-- WORD0 (R28). -/
  word0 : RawWord
  /-- WORD1 (R28). -/
  word1 : RawWord
  /-- CRC_OUT (R29). -/
  crcOut : Byte
  /-- T_NUM, two's complement (R30). -/
  tNum : Word
  /-- T_MILLI, two's complement (R31). -/
  tMilli : Word
  /-- H_NUM, two's complement (R32). -/
  hNum : Word
  /-- H_MILLI, two's complement (R33). -/
  hMilli : Word
  /-- ERR, the record of the last command (R34). -/
  err : ErrRecord
  /-- The MODEL's own field: what the host will present, oldest first (log 1). Not a queue inside the block: R42, R66. -/
  incoming : List HostEvent
  /-- The MODEL's own field: the word the port returned in the last step, `none` unless it was a read (log 3). -/
  returned : Option Word
  deriving DecidableEq, Repr

/-- The state right after reset (R250). Every register value is the spec's; `incoming` and `returned` are the model's own. -/
def State.reset : State where
  en := false
  mode := .high
  rxcnt := 0#3
  ovf := false
  buf := #v[0#8, 0#8, 0#8, 0#8, 0#8, 0#8]
  word0 := 0#16
  word1 := 0#16
  crcOut := 0#8
  tNum := 0#32
  tMilli := 0#32
  hNum := 0#32
  hMilli := 0#32
  err := { code := 0#4, group := 0#2, received := 0#8, computed := 0#8 }
  incoming := []
  returned := none

/-! ### Why a step stops -/

/-- "The block has no fault that stops it, no stuck state and no hang" (R225): there is no fault to raise (log 8). -/
inductive Fault where
  deriving DecidableEq, Repr

/-- Why a step has no meaning. -/
inductive Refusal where
  /-- An instruction whose arm of `exec` has no meaning yet. Raised by no arm now. Safe. -/
  | notModelled (mnemonic : String)
  /-- A byte or half-word access, which the port cannot carry (R61, R62, D2). Raised by `performAccess`. Safe. -/
  | subWordAccess
  /-- An access of more than one word, which the port cannot carry (R61). Raised by `performAccess`. Safe. -/
  | multiWordAccess
  /-- An access whose offset has bits [1:0] != 0 (R62). Raised by `performAccess`. Safe. -/
  | misalignedAccess
  /-- An access whose offset is >= 0x080 (R62), or at a host address outside the block's window (log 9).
  Raised by `performAccess` and by the platform's routing. Safe. -/
  | outOfRangeAccess
  /-- An access while reset is applied (R253, 93_implementation_defined.md §1). Raised by `perform`. Safe. -/
  | accessDuringReset
  deriving DecidableEq, Repr

end Sys2Proof.Machine
end

