-- ==== Sys2Proof/Machine/Conversion.lean ====
section
/-! DEFINITION. The linear scaler: exact integers, narrowed once at the end (43_conversion.md R180-R183, R186, R189). -/

namespace Sys2Proof.Machine

/-! ### Calibration constants (R38): "never change after construction" -/

/-- CAL_T_OFFSET, in °C. -/
def calTOffset : Int := -45
/-- CAL_T_GAIN. -/
def calTGain : Int := 175
/-- CAL_T_SCALE: 65535, not 65536 (R189). -/
def calTScale : Int := 65535
/-- CAL_H_GAIN. -/
def calHGain : Int := 100
/-- CAL_H_SCALE. -/
def calHScale : Int := 65535

/-! ### The four conversion functions -/

/-- tnum(r) = 175*r - 2949075, the temperature in °C times 65535, exactly (R180). -/
def tnum (r : RawWord) : Int := 175 * (r.toNat : Int) - 2949075

/-- tmilli(r) = ((175000*r + 32767) div 65535) - 45000, rounded to nearest (R181); `/` is floor division (R8). -/
def tmilli (r : RawWord) : Int := (175000 * (r.toNat : Int) + 32767) / 65535 - 45000

/-- hnum(r) = 100*r, the humidity in %RH times 65535, exactly; no offset (R182). -/
def hnum (r : RawWord) : Int := 100 * (r.toNat : Int)

/-- hmilli(r) = (100000*r + 32767) div 65535, rounded to nearest (R183). -/
def hmilli (r : RawWord) : Int := (100000 * (r.toNat : Int) + 32767) / 65535

/-- sext_32 (R8). -/
def sext32 (v : Int) : Word := BitVec.ofInt 32 v

end Sys2Proof.Machine
end

