-- ==== Sys2Proof/Machine/Checksum.lean ====
section
/-! DEFINITION. The checksum function (42_checksum.md R160). -/

namespace Sys2Proof.Machine

/-- One round of the inner loop of R160: shift left, and XOR the polynomial when bit 7 was set. -/
def crcRound (crc : Byte) : Byte :=
  if crc &&& 0x80#8 ≠ 0#8 then (crc <<< 1) ^^^ Config.crcPoly else crc <<< 1

/-- `k` rounds; `crcRounds 8` is the map T of R162. -/
def crcRounds : Nat → Byte → Byte
  | 0, crc => crc
  | k + 1, crc => crcRounds k (crcRound crc)

/-- One input byte: XOR it in, then 8 rounds (R160). -/
def crcByte (crc v : Byte) : Byte := crcRounds 8 (crc ^^^ v)

/-- crc8(a, b): initial value 0xFF, `a` first, then `b`, no final XOR (R160). -/
def crc8 (a b : Byte) : Byte := crcByte (crcByte Config.crcInit a) b

end Sys2Proof.Machine
end

