-- ==== Sys2Proof/Machine/Operands.lean ====
section
/-! DEFINITION. What the commands operate on: the mode operand, the command descriptors, the groups of the reply
buffer and the RawWords (40_mode.md, 41_pipeline.md). -/

namespace Sys2Proof.Machine

/-! ### Accuracy mode -/

/-- The mode an M-form operand names: 0 High, 1 Medium, 2 Low; 3 names none (R24, R83, R102). -/
def Mode.ofField (m : BitVec 2) : Option Mode :=
  if m = 0#2 then some .high else if m = 1#2 then some .medium else if m = 2#2 then some .low else none

/-- The two bits MODE holds (R24). -/
def Mode.bits : Mode → BitVec 2
  | .high => 0#2
  | .medium => 1#2
  | .low => 2#2

/-! ### Command descriptors (R100) -/

/-- A command descriptor: payload, wait and reply length (R13, R100). `waitMs` is data the host reads; no rule of the
block uses it (R101). -/
structure Descriptor where
  payload : BitVec 16
  waitMs : Nat
  replyLength : Nat
  deriving DecidableEq, Repr

/-- DESC(m), the combined-read descriptors (R100). -/
def desc : Mode → Descriptor
  | .high => { payload := 0x2400#16, waitMs := 15, replyLength := 6 }
  | .medium => { payload := 0x240B#16, waitMs := 6, replyLength := 6 }
  | .low => { payload := 0x2416#16, waitMs := 4, replyLength := 6 }

/-- DESC_ST, the status-register-read descriptor (R100). -/
def descStatus : Descriptor := { payload := 0xF32D#16, waitMs := 4, replyLength := 3 }

/-- The packing {reply_length[7:0], max_wait_ms[7:0], payload[15:0]} (R36). -/
def Descriptor.pack (d : Descriptor) : Word :=
  BitVec.ofNat 8 d.replyLength ++ BitVec.ofNat 8 d.waitMs ++ d.payload

/-! ### Groups of the reply buffer (R124, R126) -/

/-- Byte `k` of group `g`: BUF[3g + k]. -/
def groupByte (buf : ReplyBuffer) (g : Fin 2) (k : Fin 3) : Byte :=
  buf[3 * g.val + k.val]'(by omega)

/-- RawWord[g] = {BUF[3g], BUF[3g+1]}, big-endian; the checksum byte is no part of it (R67, R126). -/
def rawWord (buf : ReplyBuffer) (g : Fin 2) : RawWord := groupByte buf g 0 ++ groupByte buf g 1

/-- The checksum computed over the two data bytes of group `g` (R124). -/
def groupCalc (buf : ReplyBuffer) (g : Fin 2) : Byte := crc8 (groupByte buf g 0) (groupByte buf g 1)

/-- The checksum received as the third byte of group `g` (R124). -/
def groupRecv (buf : ReplyBuffer) (g : Fin 2) : Byte := groupByte buf g 2

/-- The groups 0 .. n-1, in increasing order (R124); n is 1 or 2 (R125). -/
def groups (n : Nat) : List (Fin 2) := [0, 1].take n

end Sys2Proof.Machine
end

