-- ==== Sys2Proof/Machine/Flags.lean ====
section
/-! DEFINITION. The status the commands leave: the error record, the order of checks inside a frame, and the words
STATUS and ERR (R34, R35, R40, R122, R124, R220). -/

namespace Sys2Proof.Machine

/-- What `raise` reports (R220). -/
inductive CommandError where
  /-- IntegrityError: the first failing group, its received and its computed checksum. -/
  | integrity (group : Fin 2) (received computed : Byte)
  /-- StateError. -/
  | state
  /-- LengthError. -/
  | length
  /-- IllegalCommand. -/
  | illegal
  deriving DecidableEq, Repr

/-- ERR after a success: every field 0 (R220, R223). -/
def ErrRecord.none : ErrRecord := { code := 0#4, group := 0#2, received := 0#8, computed := 0#8 }

/-- ERR after `raise`: the code, and GROUP, RECV, CALC for INTEGRITY only (R220, R223). -/
def ErrRecord.ofError : CommandError → ErrRecord
  | .integrity g received computed => { code := 1#4, group := BitVec.ofNat 2 g.val, received := received, computed := computed }
  | .state => { code := 2#4, group := 0#2, received := 0#8, computed := 0#8 }
  | .length => { code := 3#4, group := 0#2, received := 0#8, computed := 0#8 }
  | .illegal => { code := 4#4, group := 0#2, received := 0#8, computed := 0#8 }

/-- The word ERR reads as: {0x00, CALC, RECV, 0b00, GROUP, CODE} (R34, R223). -/
def ErrRecord.toWord (e : ErrRecord) : Word := 0#8 ++ e.computed ++ e.received ++ 0#2 ++ e.group ++ e.code

/-- The word STATUS reads as: {zeros(24), OVF, RXCNT, 0, MODE, EN} (R35). -/
def statusWord (s : State) : Word :=
  0#24 ++ BitVec.ofBool s.ovf ++ s.rxcnt ++ 0#1 ++ s.mode.bits ++ BitVec.ofBool s.en

/-- The first group of the list whose check fails, as the error it raises (R124); later groups are not checked. -/
def firstBadGroup (buf : ReplyBuffer) : List (Fin 2) → Option CommandError
  | [] => none
  | g :: gs =>
    if groupCalc buf g ≠ groupRecv buf g then some (.integrity g (groupRecv buf g) (groupCalc buf g))
    else firstBadGroup buf gs

/-- The error a frame of `need` bytes and `n` groups raises, if any: the exact-length check first (R122), then the
groups in increasing order (R124); the order is R222's. -/
def frameError (need n : Nat) (s : State) : Option CommandError :=
  if s.ovf = true ∨ s.rxcnt.toNat ≠ need then some .length else firstBadGroup s.buf (groups n)

end Sys2Proof.Machine
end

