-- ==== Sys2Proof/Machine/Ops.lean ====
section
/-! DEFINITION. The operations over the registers that the commands share (R10, R127, R223). The block has no memory
(R60); BUF is reached through `pushByte` and the groups of Operands.lean. -/

namespace Sys2Proof.Machine

/-! ### Error entry, success, consume -/

/-- `raise E(info)`, the block's "trap entry" (R10, R223): ERR records the error and nothing else is written or saved:
there is "no exception PC, cause register other than ERR, stack, mode change, mask or vector". There is no return from
it (R224): the next access simply sees ERR. -/
def raise (e : CommandError) (s : State) : State := { s with err := .ofError e }

/-- `succeed()`: ERR <- 0 (R10, R223). -/
def succeed (s : State) : State := { s with err := .none }

/-- `consume()`: RXCNT <- 0, OVF <- 0; BUF is unchanged (R10). -/
def consume (s : State) : State := { s with rxcnt := 0#3, ovf := false }

/-! ### Register writes -/

def setEn (v : Bool) (s : State) : State := { s with en := v }

def setMode (m : Mode) (s : State) : State := { s with mode := m }

def setWord0 (w : RawWord) (s : State) : State := { s with word0 := w }

def setWord1 (w : RawWord) (s : State) : State := { s with word1 := w }

def setCrcOut (v : Byte) (s : State) : State := { s with crcOut := v }

/-- T_NUM and T_MILLI of a raw temperature word (R130, R184). -/
def setTemperature (r : RawWord) (s : State) : State :=
  { s with tNum := sext32 (tnum r), tMilli := sext32 (tmilli r) }

/-- H_NUM and H_MILLI of a raw humidity word (R130, R185). -/
def setHumidity (r : RawWord) (s : State) : State :=
  { s with hNum := sext32 (hnum r), hMilli := sext32 (hmilli r) }

/-- The body of PUSH (R120): append while RXCNT < 6, else drop the byte and set OVF. -/
def pushByte (b : Byte) (s : State) : State :=
  if h : s.rxcnt.toNat < 6 then { s with buf := s.buf.set s.rxcnt.toNat b h, rxcnt := s.rxcnt + 1#3 }
  else { s with ovf := true }

/-! ### The shared shapes of a command -/

/-- The session check: StateError unless EN is `want`, without a consume (R203, R222). -/
def needSession (want : Bool) (body : State → State) (s : State) : State :=
  if s.en = want then body s else raise .state s

/-- A consuming command: R127's `frame`, then the command's own writes, then `succeed`. The consume happens whether the
frame succeeds or fails; on a failure nothing but ERR is written after it (R123, R127). `commit` may read the words of the
frame from BUF after the consume, since the consume leaves BUF unchanged. -/
def consuming (need n : Nat) (commit : State → State) (s : State) : State :=
  match frameError need n s with
  | some e => raise e (consume s)
  | none => succeed (commit (consume s))

end Sys2Proof.Machine
end

