-- ==== Sys2Proof/Machine/Datapath.lean ====
section
/-! DEFINITION. The pure datapath commands, which need no session (R203): CRC8, CONV_T, CONV_H. -/

namespace Sys2Proof.Machine

/-- CRC8 (R161): CRC_OUT <- crc8(hi, lo). -/
def execCrc8 (hi lo : Byte) (s : State) : Host.Outcome State Fault Refusal :=
  .next (succeed (setCrcOut (crc8 hi lo) s))

/-- CONV_T (R184): T_NUM and T_MILLI. -/
def execConvT (r : RawWord) (s : State) : Host.Outcome State Fault Refusal :=
  .next (succeed (setTemperature r s))

/-- CONV_H (R185): H_NUM and H_MILLI. -/
def execConvH (r : RawWord) (s : State) : Host.Outcome State Fault Refusal :=
  .next (succeed (setHumidity r s))

end Sys2Proof.Machine
end

