-- ==== Sys2Proof/Machine/Lifecycle.lean ====
section
/-! DEFINITION. Session and control commands: OPEN, CLOSE, SETMODE, NOP (40_mode.md, 44_lifecycle.md). -/

namespace Sys2Proof.Machine

/-- OPEN (R200): validates the status probe; on success WORD0, MODE <- High, EN <- 1. -/
def execOpen (s : State) : Host.Outcome State Fault Refusal :=
  .next (needSession false
    (consuming descStatus.replyLength (descStatus.replyLength / 3) fun s =>
      setEn true (setMode .high (setWord0 (rawWord s.buf 0) s))) s)

/-- CLOSE (R201): never a StateError; MODE and the results are kept. -/
def execClose (s : State) : Host.Outcome State Fault Refusal := .next (succeed (setEn false (consume s)))

/-- SETMODE m (R102): the buffer is not touched. A word with m = 3 is ILLEGAL before the session check (R86, R222). -/
def execSetMode (m : BitVec 2) (s : State) : Host.Outcome State Fault Refusal :=
  .next (match Mode.ofField m with
    | some mode => needSession true (fun s => succeed (setMode mode s)) s
    | none => raise .illegal s)

/-- NOP (R202): ERR <- 0 and nothing else. -/
def execNop (s : State) : Host.Outcome State Fault Refusal := .next (succeed s)

end Sys2Proof.Machine
end

