-- ==== Sys2Proof/Machine/Pipeline.lean ====
section
/-! DEFINITION. The reply buffer and the read pipeline: PUSH, FLUSH, VALIDATE, READ_STATUS, READ_TH (41_pipeline.md). -/

namespace Sys2Proof.Machine

/-- PUSH (R120): no error, whatever EN is; ERR is not written. -/
def execPush (b : Byte) (s : State) : Host.Outcome State Fault Refusal := .next (pushByte b s)

/-- FLUSH (R121). -/
def execFlush (s : State) : Host.Outcome State Fault Refusal := .next (succeed (consume s))

/-- The words VALIDATE n commits: WORD0, and WORD1 when n = 2 (R128). -/
def commitWords (n : BitVec 2) (s : State) : State :=
  if n = 2#2 then setWord1 (rawWord s.buf 1) (setWord0 (rawWord s.buf 0) s)
  else setWord0 (rawWord s.buf 0) s

/-- VALIDATE n (R128): need = 3n bytes, n groups. A word with n = 0 or n = 3 is ILLEGAL before any other check (R86, R222). -/
def execValidate (n : BitVec 2) (s : State) : Host.Outcome State Fault Refusal :=
  .next (if groupCountOk n then consuming (3 * n.toNat) n.toNat (commitWords n) s else raise .illegal s)

/-- READ_STATUS (R129): WORD0 only. -/
def execReadStatus (s : State) : Host.Outcome State Fault Refusal :=
  .next (needSession true
    (consuming descStatus.replyLength (descStatus.replyLength / 3) fun s => setWord0 (rawWord s.buf 0) s) s)

/-- What READ_TH commits: both words and the four conversions of them (R130). -/
def commitReading (s : State) : State :=
  setHumidity (rawWord s.buf 1) <| setTemperature (rawWord s.buf 0) <|
    setWord1 (rawWord s.buf 1) <| setWord0 (rawWord s.buf 0) s

/-- READ_TH (R130): need = DESC(MODE).reply_length, need / 3 groups. -/
def execReadTH (s : State) : Host.Outcome State Fault Refusal :=
  .next (needSession true
    (consuming (desc s.mode).replyLength ((desc s.mode).replyLength / 3) commitReading) s)

end Sys2Proof.Machine
end

