-- ==== Sys2Proof/Machine/Dispatch.lean ====
section
/-! DEFINITION. One arm per instruction (R81, R87). -/

namespace Sys2Proof.Machine

def exec (i : Instr) (s : State) : Host.Outcome State Fault Refusal :=
  match i with
  | .nop => Sys2Proof.Machine.execNop s
  | .crc8 hi lo => Sys2Proof.Machine.execCrc8 hi lo s
  | .convT r => Sys2Proof.Machine.execConvT r s
  | .convH r => Sys2Proof.Machine.execConvH r s
  | .validate n => Sys2Proof.Machine.execValidate n s
  | .flush => Sys2Proof.Machine.execFlush s
  | .openSession => Sys2Proof.Machine.execOpen s
  | .closeSession => Sys2Proof.Machine.execClose s
  | .setMode m => Sys2Proof.Machine.execSetMode m s
  | .readStatus => Sys2Proof.Machine.execReadStatus s
  | .readTH => Sys2Proof.Machine.execReadTH s
  | .push b => Sys2Proof.Machine.execPush b s

end Sys2Proof.Machine
end

