-- ==== Sys2Proof/Machine/RegisterMap.lean ====
section
/-! DEFINITION. The register map of the host port and what each register reads as (20_memory.md R63, R64; 10_state.md). -/

namespace Sys2Proof.Machine

/-- The named registers of the map (R63). -/
inductive PortReg where
  | status | cmd | err | rxdata | word0 | word1 | crcOut
  | tNum | tMilli | hNum | hMilli | descTH | descStatus
  | buf (i : Fin 6)
  | calTOffset | calTGain | calTScale | calHGain | calHScale
  deriving DecidableEq, Repr

/-- The map, one entry per word index from 0 to 31; the byte offset is four times the index; `none` is a reserved word (R63). -/
def registerMap : List (Option PortReg) := [
  -- 0x000
  some .status, some .cmd, some .err, some .rxdata,
  -- 0x010
  some .word0, some .word1, some .crcOut, none,
  -- 0x020
  some .tNum, some .tMilli, some .hNum, some .hMilli,
  -- 0x030
  some .descTH, some .descStatus, none, none,
  -- 0x040
  some (.buf 0), some (.buf 1), some (.buf 2), some (.buf 3),
  -- 0x050
  some (.buf 4), some (.buf 5), none, none,
  -- 0x060
  some .calTOffset, some .calTGain, some .calTScale, some .calHGain,
  -- 0x070
  some .calHScale, none, none, none]

/-- The register at a byte offset that the port carries; `none` is a reserved word. -/
def regAt (offset : Nat) : Option PortReg := (registerMap[offset / 4]?).join

/-- The byte offset of a named register (R63). -/
def PortReg.offset : PortReg → Nat
  | .status => 0x000
  | .cmd => 0x004
  | .err => 0x008
  | .rxdata => 0x00C
  | .word0 => 0x010
  | .word1 => 0x014
  | .crcOut => 0x018
  | .tNum => 0x020
  | .tMilli => 0x024
  | .hNum => 0x028
  | .hMilli => 0x02C
  | .descTH => 0x030
  | .descStatus => 0x034
  | .buf i => 0x040 + 4 * i.val
  | .calTOffset => 0x060
  | .calTGain => 0x064
  | .calTScale => 0x068
  | .calHGain => 0x06C
  | .calHScale => 0x070

/-- What a named register reads as (R28-R38, R63); a read of CMD or RXDATA returns 0 (R39, R64). -/
def readReg (s : State) : PortReg → Word
  | .status => statusWord s
  | .cmd => 0#32
  | .err => s.err.toWord
  | .rxdata => 0#32
  | .word0 => s.word0.setWidth 32
  | .word1 => s.word1.setWidth 32
  | .crcOut => s.crcOut.setWidth 32
  | .tNum => s.tNum
  | .tMilli => s.tMilli
  | .hNum => s.hNum
  | .hMilli => s.hMilli
  | .descTH => (desc s.mode).pack
  | .descStatus => descStatus.pack
  | .buf i => s.buf[i].setWidth 32
  | .calTOffset => sext32 calTOffset
  | .calTGain => sext32 calTGain
  | .calTScale => sext32 calTScale
  | .calHGain => sext32 calHGain
  | .calHScale => sext32 calHScale

/-- What a word of the port reads as: the register's value, and 0 at a reserved offset (R64). -/
def portRead (s : State) (offset : Nat) : Word :=
  match regAt offset with
  | some r => readReg s r
  | none => 0#32

/-- The instruction port a write of a register acts on, `none` where the write is ignored (R63, R64, R65). -/
def PortReg.instrPort : PortReg → Option InstrPort
  | .cmd => some .cmd
  | .rxdata => some .rxdata
  | .status | .err | .word0 | .word1 | .crcOut | .tNum | .tMilli | .hNum | .hMilli | .descTH | .descStatus
  | .buf _ | .calTOffset | .calTGain | .calTScale | .calHGain | .calHScale => none

end Sys2Proof.Machine
end

