-- ==== Sys2Proof/Machine/Port.lean ====
section
/-! DEFINITION. One host event performed on the block: an access of the port, or reset (20_memory.md, 70_reset_and_hazards.md). -/

namespace Sys2Proof.Machine

/-- Why the port cannot carry an access, if it cannot (R61, R62). An access is refused, never rounded. Where several
reasons hold the first is named (log 7). -/
def Access.refusal (a : Access) : Option Refusal :=
  match a.width with
  | .byte | .half => some .subWordAccess
  | .multiWord => some .multiWordAccess
  | .word =>
    if a.offset % 4 ≠ 0 then some .misalignedAccess
    else if Config.portBytes ≤ a.offset then some .outOfRangeAccess
    else none

/-- A word written to an instruction port: a legal word runs its instruction, an illegal one raises IllegalCommand and has
no other effect (R81, R87). -/
def writeInstr (p : InstrPort) (w : Word) (s : State) : Host.Outcome State Fault Refusal :=
  match decode p w with
  | .instr i => exec i s
  | .illegal _ => .next (raise .illegal s)

/-- A write at an offset the port carries: CMD and RXDATA act, every other write is ignored (R63, R64, R65). -/
def portWrite (offset : Nat) (w : Word) (s : State) : Host.Outcome State Fault Refusal :=
  match (regAt offset).bind PortReg.instrPort with
  | some p => writeInstr p w s
  | none => .next s

/-- One access as one indivisible step (R66): a read returns its word and changes no register (R65). -/
def performAccess (a : Access) (s : State) : Host.Outcome State Fault Refusal :=
  match a.refusal with
  | some r => .refused r
  | none =>
    match a.dir with
    | .read => .next { s with returned := some (portRead s a.offset) }
    | .write w => portWrite a.offset w { s with returned := none }

/-- One host event. Reset gives every stored register its reset value (R250) and leaves what the host will present
next (log 6). -/
def perform (e : HostEvent) (s : State) : Host.Outcome State Fault Refusal :=
  match e with
  | .access a => performAccess a s
  | .reset => .next { State.reset with incoming := s.incoming }
  | .accessInReset _ => .refused .accessDuringReset

/-- A read of one word. -/
def wordRead (offset : Nat) : HostEvent := .access { dir := .read, offset := offset, width := .word }

/-- A write of one word. -/
def wordWrite (offset : Nat) (w : Word) : HostEvent := .access { dir := .write w, offset := offset, width := .word }

/-- The offset of an instruction port (R80). -/
def portOffset : InstrPort → Nat
  | .cmd => 0x004
  | .rxdata => 0x00C

/-- The write that carries a word to an instruction port. -/
def instrWrite (p : InstrPort) (w : Word) : HostEvent := wordWrite (portOffset p) w

end Sys2Proof.Machine
end

