-- ==== Sys2Proof/Machine/Step.lean ====
section
/-! DEFINITION. One step of the block: the next host event, one at a time, in the order the host presents them (R20, R66). -/

namespace Sys2Proof.Machine

/-- One step. With nothing presented the block keeps its state (log 2). -/
def step (s : State) : Host.Outcome State Fault Refusal :=
  match s.incoming with
  | [] => .next s
  | e :: rest => perform e { s with incoming := rest }

/-- `s` with the word of a table row presented as the host's very next access, so that the next step runs it (log 1, log 13).
The block fetches nothing (R21): the host's write of the word is what brings an instruction to it. -/
def State.withFetchWord (s : State) (nbits w : Nat) : State :=
  { s with incoming := instrWrite (tableRowPort nbits) (tableRowWord nbits w) :: s.incoming }

end Sys2Proof.Machine
end

