-- ==== Sys2Proof/Machine/Assembler.lean ====
section
/-! DEFINITION. The host-transaction assembly and its pseudo-instructions (R89, R90): what the host presents for each line.
Notation of the host's, not an operation of the block. -/

namespace Sys2Proof.Machine

/-- One line of host-transaction assembly (R89). -/
inductive AsmLine where
  /-- `rd NAME`. -/
  | rd (r : PortReg)
  /-- `wr NAME, v`. -/
  | wr (r : PortReg) (v : Word)
  /-- `push b`, `nop`, `crc8 hi, lo`, … `read_th`: the instruction's word written to its port. -/
  | op (i : Instr)
  deriving DecidableEq, Repr

/-- The access a line stands for (R89). -/
def AsmLine.event : AsmLine → HostEvent
  | .rd r => wordRead r.offset
  | .wr r v => wordWrite r.offset v
  | .op i => instrWrite i.port (encode i)

/-- The pseudo-instructions (R90); `wr_bad` has no expansion of its own. -/
inductive Pseudo where
  | readT
  | readH
  | readTHAll
  | readStatusWord
  | clrErr
  | pushG (hi lo : Byte)
  deriving DecidableEq, Repr

/-- The expansion of a pseudo-instruction (R90); for `pushg` the assembler computes the checksum. -/
def Pseudo.expand : Pseudo → List AsmLine
  | .readT => [.op .readTH, .rd .err, .rd .tMilli]
  | .readH => [.op .readTH, .rd .err, .rd .hMilli]
  | .readTHAll => [.op .readTH, .rd .err, .rd .tMilli, .rd .hMilli]
  | .readStatusWord => [.op .readStatus, .rd .err, .rd .word0]
  | .clrErr => [.op .nop]
  | .pushG hi lo => [.op (.push hi), .op (.push lo), .op (.push (crc8 hi lo))]

/-! ### The host's sequences at the port (R131, R254); its bus transfers and waits lie outside the block (R5) -/

/-- Boot, from the push of the probe's reply to the read of ERR (R254, steps 4 and 5). -/
def bootSequence (b0 b1 b2 : Byte) : List AsmLine :=
  [.op (.push b0), .op (.push b1), .op (.push b2), .op .openSession, .rd .err]

/-- One combined read: the descriptor, the pushes of the reply, READ_TH, ERR and the results (R131, R90). -/
def combinedRead (reply : List Byte) : List AsmLine :=
  .rd .descTH :: reply.map (fun b => .op (.push b)) ++ Pseudo.readTHAll.expand

end Sys2Proof.Machine
end

