-- ==== Sys2Proof/Machine/Binary64.lean ====
section
/-! DEFINITION. The floating-point reference of R188: SAT's two formulas in IEEE-754 binary64, round to nearest, ties to
even, evaluated left to right. No step uses it; that SAT's "float" is binary64 is PRESUMED (R188; log 14). -/

namespace Sys2Proof.Machine

/-- A binary64 value as the integer `scaled`, standing for scaled / 2^116. Every binary64 number of magnitude 0 or
at least 2^-64 is such a multiple, which is all R188's formulas meet. -/
structure Binary64 where
  scaled : Int
  deriving DecidableEq, Repr

namespace Binary64

/-- n / d rounded to the nearest natural number, ties to even. -/
def roundNat (n d : Nat) : Nat :=
  if 2 * (n % d) > d ∨ (2 * (n % d) = d ∧ n / d % 2 = 1) then n / d + 1 else n / d

/-- n / d rounded to 53 significant bits, ties to even, for n = 0 or |n| / d >= 2^-64. -/
def roundRatio (n : Int) (d : Nat) : Binary64 :=
  let a := n.natAbs
  let l := Nat.log2 (a * 2 ^ 64 / d)
  let m := roundNat (a * 2 ^ 116) (d * 2 ^ l)
  ⟨n.sign * ((m * 2 ^ l : Nat) : Int)⟩

/-- The binary64 value nearest an integer. -/
def ofInt (n : Int) : Binary64 := roundRatio n 1

def add (x y : Binary64) : Binary64 := roundRatio (x.scaled + y.scaled) (2 ^ 116)

def mul (x y : Binary64) : Binary64 := roundRatio (x.scaled * y.scaled) (2 ^ 232)

def div (x y : Binary64) : Binary64 := roundRatio (x.scaled * y.scaled.sign) y.scaled.natAbs

/-- The nearest integer, ties to even. -/
def toNearest (x : Binary64) : Int := x.scaled.sign * ((roundNat x.scaled.natAbs (2 ^ 116) : Nat) : Int)

/-- round(1000 * (-45.0 + 175.0 * r / 65535.0)) in binary64 (R188). -/
def tmilliRef (r : RawWord) : Int :=
  (mul (ofInt 1000) (add (ofInt (-45)) (div (mul (ofInt 175) (ofInt r.toNat)) (ofInt 65535)))).toNearest

/-- round(1000 * (100.0 * r / 65535.0)) in binary64 (R188). -/
def hmilliRef (r : RawWord) : Int :=
  (mul (ofInt 1000) (div (mul (ofInt 100) (ofInt r.toNat)) (ofInt 65535))).toNearest

end Binary64

end Sys2Proof.Machine
end

