-- ==== Sys2Proof/Machine/Platform.lean ====
section
/-! DEFINITION. Placement of blocks in the host's address map: one block at CVS_BASE, and several side by side (R231, R232). -/

namespace Sys2Proof.Machine

/-- One block placed with its offset 0x000 at host address `base` (R231). -/
structure Placed where
  base : Nat
  block : State
  deriving DecidableEq, Repr

/-- The block's window is the 0x80 bytes from its base (R61, R231). -/
def Placed.covers (p : Placed) (addr : Nat) : Bool := p.base ≤ addr && addr < p.base + Config.portBytes

/-- An access at a host address is the access at that address less the base; an address below the base is outside the
window and refused like any other out-of-range offset (R62, R231; log 9). -/
def Placed.accessAt (dir : Direction) (width : AccessWidth) (addr : Nat) (p : Placed) :
    Host.Outcome Placed Fault Refusal :=
  if addr < p.base then .refused .outOfRangeAccess
  else match performAccess { dir := dir, offset := addr - p.base, width := width } p.block with
    | .next s => .next { p with block := s }
    | .fault f => .fault f
    | .refused r => .refused r

/-- The one block of a platform that has one, at the open parameter CVS_BASE (D41). -/
def hostAccess (dir : Direction) (width : AccessWidth) (addr : Nat) (s : State) : Host.Outcome Placed Fault Refusal :=
  Placed.accessAt dir width addr { base := Config.cvsBase, block := s }

/-- Several blocks: the access goes to the first block whose window holds the address, and no other block sees it
(R232); an address in no window reaches no block and is refused (log 10). -/
def platformAccess (dir : Direction) (width : AccessWidth) (addr : Nat) :
    List Placed → Host.Outcome (List Placed) Fault Refusal
  | [] => .refused .outOfRangeAccess
  | p :: ps =>
    if p.covers addr then
      match p.accessAt dir width addr with
      | .next p' => .next (p' :: ps)
      | .fault f => .fault f
      | .refused r => .refused r
    else
      match platformAccess dir width addr ps with
      | .next ps' => .next (p :: ps')
      | .fault f => .fault f
      | .refused r => .refused r

end Sys2Proof.Machine
end

