-- ==== Sys2Proof/Safety.lean ====
section
/-! DEFINITION. The terms claims are stated in: the legal states, the accesses the port carries, the host's duty about
results, and runs of instructions. -/

namespace Sys2Proof.Machine

/-- The invariants "that hold in every reachable state" (R41). -/
structure State.Legal (s : State) : Prop where
  rxcnt_le : s.rxcnt.toNat ≤ 6
  ovf_full : s.ovf = true → s.rxcnt.toNat = 6
  mode_le : s.mode.bits.toNat ≤ 2
  code_le : s.err.code.toNat ≤ 4
  info_zero : s.err.code ≠ 1#4 → s.err.group = 0#2 ∧ s.err.received = 0#8 ∧ s.err.computed = 0#8
  group_le : s.err.group.toNat ≤ 1
  tMilli_range : 0 ≤ s.tMilli.toInt + 45000 ∧ s.tMilli.toInt + 45000 ≤ 175000
  hMilli_range : 0 ≤ s.hMilli.toInt ∧ s.hMilli.toInt ≤ 100000

/-- The two forms of each converted value agree: the numerators lie in their ranges (R30, R32) and each milli-unit value is
the integer nearest 1000 times its numerator over 65535 (R181, R183). It holds of the zeros of reset too. -/
structure State.Scaled (s : State) : Prop where
  tNum_range : -2949075 ≤ s.tNum.toInt ∧ s.tNum.toInt ≤ 8519550
  hNum_range : 0 ≤ s.hNum.toInt ∧ s.hNum.toInt ≤ 6553500
  tMilli_nearest : 2 * |65535 * s.tMilli.toInt - 1000 * s.tNum.toInt| < 65535
  hMilli_nearest : 2 * |65535 * s.hMilli.toInt - 1000 * s.hNum.toInt| < 65535

/-- The port carries the access: one whole word at an offset that is a multiple of 4 below 0x080 (R61, R62). -/
def Access.Carried (a : Access) : Prop := a.width = .word ∧ a.offset % 4 = 0 ∧ a.offset < 0x80

/-- What the host may present: accesses the port carries, and reset between accesses (R61, R253). -/
def HostEvent.Carried : HostEvent → Prop
  | .access a => a.Carried
  | .reset => True
  | .accessInReset _ => False

/-- Everything the host will present can be carried out. -/
def State.CarriedInput (s : State) : Prop := ∀ e ∈ s.incoming, e.Carried

/-- ERR.CODE = 0: the condition under which the host may take the results of the command that just ran (R265). -/
def State.succeeded (s : State) : Prop := s.err.code = 0#4

/-! ### The spec's side of a statement, written out from the rules and not through the model's own operations -/

/-- `legal(c)`, clause by clause (R85). -/
def legalWord (c : Word) : Prop :=
  let op := c.extractLsb' 0 8
  c.extractLsb' 24 8 = 0#8 ∧
  op ∈ [0x00#8, 0x01#8, 0x02#8, 0x03#8, 0x04#8, 0x05#8, 0x10#8, 0x11#8, 0x12#8, 0x13#8, 0x14#8] ∧
  (op ∈ [0x00#8, 0x05#8, 0x10#8, 0x11#8, 0x13#8, 0x14#8] → c.extractLsb' 8 16 = 0#16) ∧
  (op = 0x04#8 → c.extractLsb' 10 14 = 0#14 ∧ c.extractLsb' 8 2 ∈ [1#2, 2#2]) ∧
  (op = 0x12#8 → c.extractLsb' 10 14 = 0#14 ∧ c.extractLsb' 8 2 ∈ [0#2, 1#2, 2#2])

/-- An ERR record with the given CODE and "other fields 0" (R220). -/
def errCode (code : BitVec 4) : ErrRecord := { code := code, group := 0#2, received := 0#8, computed := 0#8 }

/-- The ERR record of an IntegrityError: CODE 1 with GROUP, RECV and CALC (R220). -/
def errIntegrity (group : BitVec 2) (received computed : Byte) : ErrRecord :=
  { code := 1#4, group := group, received := received, computed := computed }

/-- The bytes a consuming command needs (R125), `none` for a command that consumes no frame. -/
def neededBytes : Instr → Option Nat
  | .validate n => some (3 * n.toNat)
  | .readStatus | .openSession => some 3
  | .readTH => some 6
  | .nop | .crc8 _ _ | .convT _ | .convH _ | .flush | .closeSession | .setMode _ | .push _ => none

/-- The value of EN a command needs, where it needs one (R203). -/
def neededSession : Instr → Option Bool
  | .openSession => some false
  | .setMode _ | .readStatus | .readTH => some true
  | .nop | .crc8 _ _ | .convT _ | .convH _ | .validate _ | .flush | .closeSession | .push _ => none

/-- ERR after a legal command: the first check that fails, in the order of R222. -/
def reportedErr (i : Instr) (s : State) : ErrRecord :=
  if neededSession i = some (!s.en) then errCode 2#4
  else match neededBytes i with
    | none => errCode 0#4
    | some need =>
      if s.ovf = true ∨ s.rxcnt.toNat ≠ need then errCode 3#4
      else if crc8 s.buf[0] s.buf[1] ≠ s.buf[2] then errIntegrity 0#2 s.buf[2] (crc8 s.buf[0] s.buf[1])
      else if need = 6 ∧ crc8 s.buf[3] s.buf[4] ≠ s.buf[5] then errIntegrity 1#2 s.buf[5] (crc8 s.buf[3] s.buf[4])
      else errCode 0#4

/-- The stored registers: the rows of the table of 10_state.md §2. -/
inductive StoredReg where
  | en | mode | rxcnt | ovf | buf | word0 | word1 | crcOut | tNum | tMilli | hNum | hMilli | err
  deriving DecidableEq, Repr

/-- The column "written by" of 10_state.md §2, read by instruction. Its "consume()" is FLUSH, CLOSE and the consuming
commands (R121, R127, R201); its "every command" is every instruction but PUSH (R120). -/
def mayWrite : Instr → List StoredReg
  | .nop => [.err]
  | .crc8 _ _ => [.crcOut, .err]
  | .convT _ => [.tNum, .tMilli, .err]
  | .convH _ => [.hNum, .hMilli, .err]
  | .validate _ => [.rxcnt, .ovf, .word0, .word1, .err]
  | .flush => [.rxcnt, .ovf, .err]
  | .openSession => [.en, .mode, .rxcnt, .ovf, .word0, .err]
  | .closeSession => [.en, .rxcnt, .ovf, .err]
  | .setMode _ => [.mode, .err]
  | .readStatus => [.rxcnt, .ovf, .word0, .err]
  | .readTH => [.rxcnt, .ovf, .word0, .word1, .tNum, .tMilli, .hNum, .hMilli, .err]
  | .push _ => [.rxcnt, .ovf, .buf]

/-- Two states hold the same value in a register. -/
def StoredReg.Same (s t : State) : StoredReg → Prop
  | .en => t.en = s.en
  | .mode => t.mode = s.mode
  | .rxcnt => t.rxcnt = s.rxcnt
  | .ovf => t.ovf = s.ovf
  | .buf => t.buf = s.buf
  | .word0 => t.word0 = s.word0
  | .word1 => t.word1 = s.word1
  | .crcOut => t.crcOut = s.crcOut
  | .tNum => t.tNum = s.tNum
  | .tMilli => t.tMilli = s.tMilli
  | .hNum => t.hNum = s.hNum
  | .hMilli => t.hMilli = s.hMilli
  | .err => t.err = s.err

/-- The step table T of R162, as 95_test_vectors.md §2.1 lists it. -/
def crcTable : List Byte :=
  [0x00#8, 0x31#8, 0x62#8, 0x53#8, 0xC4#8, 0xF5#8, 0xA6#8, 0x97#8, 0xB9#8, 0x88#8, 0xDB#8, 0xEA#8, 0x7D#8, 0x4C#8, 0x1F#8, 0x2E#8] ++
  [0x43#8, 0x72#8, 0x21#8, 0x10#8, 0x87#8, 0xB6#8, 0xE5#8, 0xD4#8, 0xFA#8, 0xCB#8, 0x98#8, 0xA9#8, 0x3E#8, 0x0F#8, 0x5C#8, 0x6D#8] ++
  [0x86#8, 0xB7#8, 0xE4#8, 0xD5#8, 0x42#8, 0x73#8, 0x20#8, 0x11#8, 0x3F#8, 0x0E#8, 0x5D#8, 0x6C#8, 0xFB#8, 0xCA#8, 0x99#8, 0xA8#8] ++
  [0xC5#8, 0xF4#8, 0xA7#8, 0x96#8, 0x01#8, 0x30#8, 0x63#8, 0x52#8, 0x7C#8, 0x4D#8, 0x1E#8, 0x2F#8, 0xB8#8, 0x89#8, 0xDA#8, 0xEB#8] ++
  [0x3D#8, 0x0C#8, 0x5F#8, 0x6E#8, 0xF9#8, 0xC8#8, 0x9B#8, 0xAA#8, 0x84#8, 0xB5#8, 0xE6#8, 0xD7#8, 0x40#8, 0x71#8, 0x22#8, 0x13#8] ++
  [0x7E#8, 0x4F#8, 0x1C#8, 0x2D#8, 0xBA#8, 0x8B#8, 0xD8#8, 0xE9#8, 0xC7#8, 0xF6#8, 0xA5#8, 0x94#8, 0x03#8, 0x32#8, 0x61#8, 0x50#8] ++
  [0xBB#8, 0x8A#8, 0xD9#8, 0xE8#8, 0x7F#8, 0x4E#8, 0x1D#8, 0x2C#8, 0x02#8, 0x33#8, 0x60#8, 0x51#8, 0xC6#8, 0xF7#8, 0xA4#8, 0x95#8] ++
  [0xF8#8, 0xC9#8, 0x9A#8, 0xAB#8, 0x3C#8, 0x0D#8, 0x5E#8, 0x6F#8, 0x41#8, 0x70#8, 0x23#8, 0x12#8, 0x85#8, 0xB4#8, 0xE7#8, 0xD6#8] ++
  [0x7A#8, 0x4B#8, 0x18#8, 0x29#8, 0xBE#8, 0x8F#8, 0xDC#8, 0xED#8, 0xC3#8, 0xF2#8, 0xA1#8, 0x90#8, 0x07#8, 0x36#8, 0x65#8, 0x54#8] ++
  [0x39#8, 0x08#8, 0x5B#8, 0x6A#8, 0xFD#8, 0xCC#8, 0x9F#8, 0xAE#8, 0x80#8, 0xB1#8, 0xE2#8, 0xD3#8, 0x44#8, 0x75#8, 0x26#8, 0x17#8] ++
  [0xFC#8, 0xCD#8, 0x9E#8, 0xAF#8, 0x38#8, 0x09#8, 0x5A#8, 0x6B#8, 0x45#8, 0x74#8, 0x27#8, 0x16#8, 0x81#8, 0xB0#8, 0xE3#8, 0xD2#8] ++
  [0xBF#8, 0x8E#8, 0xDD#8, 0xEC#8, 0x7B#8, 0x4A#8, 0x19#8, 0x28#8, 0x06#8, 0x37#8, 0x64#8, 0x55#8, 0xC2#8, 0xF3#8, 0xA0#8, 0x91#8] ++
  [0x47#8, 0x76#8, 0x25#8, 0x14#8, 0x83#8, 0xB2#8, 0xE1#8, 0xD0#8, 0xFE#8, 0xCF#8, 0x9C#8, 0xAD#8, 0x3A#8, 0x0B#8, 0x58#8, 0x69#8] ++
  [0x04#8, 0x35#8, 0x66#8, 0x57#8, 0xC0#8, 0xF1#8, 0xA2#8, 0x93#8, 0xBD#8, 0x8C#8, 0xDF#8, 0xEE#8, 0x79#8, 0x48#8, 0x1B#8, 0x2A#8] ++
  [0xC1#8, 0xF0#8, 0xA3#8, 0x92#8, 0x05#8, 0x34#8, 0x67#8, 0x56#8, 0x78#8, 0x49#8, 0x1A#8, 0x2B#8, 0xBC#8, 0x8D#8, 0xDE#8, 0xEF#8] ++
  [0x82#8, 0xB3#8, 0xE0#8, 0xD1#8, 0x46#8, 0x77#8, 0x24#8, 0x15#8, 0x3B#8, 0x0A#8, 0x59#8, 0x68#8, 0xFF#8, 0xCE#8, 0x9D#8, 0xAC#8]

/-- Instructions executed one after another (R66). -/
def execAll : List Instr → State → Host.Outcome State Fault Refusal
  | [], s => .next s
  | i :: is, s =>
    match exec i s with
    | .next t => execAll is t
    | .fault f => .fault f
    | .refused r => .refused r

end Sys2Proof.Machine
end

