-- ==== Sys2Proof/Certificates/Slice0/Obligations.lean ====
section
/-! DEFINITION. The statements for the provers, each with the rule of spec/ it formalises. A statement of an instruction's
result is an equation `exec … = .next …`, so it says at once that the instruction completes, what it writes, and that it
writes nothing else. -/

open Sys2Proof Sys2Proof.Machine

/-! ### Reset and the register map -/

/-- R250: the value of every stored register at reset; the reset event gives exactly that state (the host's further events
stay, log 6); the registers that are no state read the same after it. -/
def Obligations.ResetGivesEveryRegisterItsValue : Prop :=
  (State.reset.en = false ∧ State.reset.mode = .high ∧ State.reset.rxcnt = 0#3 ∧ State.reset.ovf = false ∧
    (∀ i : Fin 6, State.reset.buf[i] = 0#8) ∧ State.reset.word0 = 0#16 ∧ State.reset.word1 = 0#16 ∧
    State.reset.crcOut = 0#8 ∧ State.reset.tNum = 0#32 ∧ State.reset.tMilli = 0#32 ∧ State.reset.hNum = 0#32 ∧
    State.reset.hMilli = 0#32 ∧ State.reset.err = errCode 0#4) ∧
  (∀ (s : State) (rest : List HostEvent), s.incoming = .reset :: rest →
    step s = .next { State.reset with incoming := rest }) ∧
  (∀ s : State, ∀ off ∈ [0x034, 0x060, 0x064, 0x068, 0x06C, 0x070], portRead State.reset off = portRead s off)

/-- R251: what each register reads just after reset.
(R251 is marked in the spec as derived.) -/
def Obligations.ReadsJustAfterReset : Prop :=
  (∀ off ∈ [0x000, 0x008, 0x010, 0x014, 0x018, 0x020, 0x024, 0x028, 0x02C, 0x040, 0x044, 0x048, 0x04C, 0x050, 0x054],
    portRead State.reset off = 0#32) ∧
  portRead State.reset 0x030 = 0x060F2400#32 ∧ portRead State.reset 0x034 = 0x0304F32D#32 ∧
  portRead State.reset 0x060 = 0xFFFFFFD3#32 ∧ portRead State.reset 0x064 = 0x000000AF#32 ∧
  portRead State.reset 0x068 = 0x0000FFFF#32 ∧ portRead State.reset 0x06C = 0x00000064#32 ∧
  portRead State.reset 0x070 = 0x0000FFFF#32 ∧
  tmilli 0x41D4#16 = 0 ∧ hmilli 0#16 = 0

/-- R63, with the packing of STATUS (R35): what every word of the map reads as, that a write acts at CMD and RXDATA, and that every other write is ignored. -/
def Obligations.RegisterMapReads : Prop :=
  ∀ s : State,
    portRead s 0x000 = 0#24 ++ BitVec.ofBool s.ovf ++ s.rxcnt ++ 0#1 ++ s.mode.bits ++ BitVec.ofBool s.en ∧
    portRead s 0x004 = 0#32 ∧
    portRead s 0x008 = 0#8 ++ s.err.computed ++ s.err.received ++ 0#2 ++ s.err.group ++ s.err.code ∧
    portRead s 0x00C = 0#32 ∧
    portRead s 0x010 = 0#16 ++ s.word0 ∧ portRead s 0x014 = 0#16 ++ s.word1 ∧ portRead s 0x018 = 0#24 ++ s.crcOut ∧
    portRead s 0x01C = 0#32 ∧
    portRead s 0x020 = s.tNum ∧ portRead s 0x024 = s.tMilli ∧ portRead s 0x028 = s.hNum ∧ portRead s 0x02C = s.hMilli ∧
    portRead s 0x030 = (desc s.mode).pack ∧ portRead s 0x034 = 0x0304F32D#32 ∧
    portRead s 0x038 = 0#32 ∧ portRead s 0x03C = 0#32 ∧
    (∀ i : Fin 6, portRead s (0x040 + 4 * i.val) = 0#24 ++ s.buf[i]) ∧
    portRead s 0x058 = 0#32 ∧ portRead s 0x05C = 0#32 ∧
    portRead s 0x060 = 0xFFFFFFD3#32 ∧ portRead s 0x064 = 0x000000AF#32 ∧ portRead s 0x068 = 0x0000FFFF#32 ∧
    portRead s 0x06C = 0x00000064#32 ∧ portRead s 0x070 = 0x0000FFFF#32 ∧
    portRead s 0x074 = 0#32 ∧ portRead s 0x078 = 0#32 ∧ portRead s 0x07C = 0#32 ∧
    (∀ w : Word, portWrite 0x004 w s = writeInstr .cmd w s ∧ portWrite 0x00C w s = writeInstr .rxdata w s) ∧
    (∀ (w : Word) (k : Nat), k < 32 → k ≠ 1 → k ≠ 3 → portWrite (4 * k) w s = .next s)

/-- R100 with the packing of R36 and R37: the four descriptors, what DESC_TH and DESC_STATUS read as, and that every
reply length is a multiple of 3. -/
def Obligations.DescriptorTable : Prop :=
  (desc .high = { payload := 0x2400#16, waitMs := 15, replyLength := 6 } ∧
    desc .medium = { payload := 0x240B#16, waitMs := 6, replyLength := 6 } ∧
    desc .low = { payload := 0x2416#16, waitMs := 4, replyLength := 6 } ∧
    descStatus = { payload := 0xF32D#16, waitMs := 4, replyLength := 3 }) ∧
  (∀ s : State,
    portRead s 0x030 = (match s.mode with
      | .high => 0x060F2400#32 | .medium => 0x0606240B#32 | .low => 0x06042416#32) ∧
    portRead s 0x034 = 0x0304F32D#32) ∧ portRead State.reset 0x030 = 0x060F2400#32 ∧
  (∀ m : Mode, (desc m).replyLength = 3 * 2) ∧ descStatus.replyLength = 3 * 1

/-! ### Accesses and steps -/

/-- Every read the port carries answers the word read and changes no register (R65, R66); `returned` and `incoming` are the
host's side of the port (logs 1, 3). -/
def Obligations.ReadReturnsWordAndChangesNothing : Prop :=
  ∀ (s : State) (rest : List HostEvent) (off : Nat), off % 4 = 0 → off < 0x80 →
    s.incoming = wordRead off :: rest →
    step s = .next { s with incoming := rest, returned := some (portRead s off) }

/-- R64: a write of a reserved offset or of an RO register is ignored, a reserved offset and a WO register read 0, and none
of these accesses is an error; `incoming` and `returned` are the host's side of the port (logs 1, 3). -/
def Obligations.IgnoredWritesAndZeroReads : Prop :=
  (∀ (s : State) (rest : List HostEvent) (off : Nat) (w : Word), off % 4 = 0 → off < 0x80 → off ≠ 0x004 → off ≠ 0x00C →
    s.incoming = wordWrite off w :: rest → step s = .next { s with incoming := rest, returned := none }) ∧
  (∀ (s : State) (rest : List HostEvent),
    ∀ off ∈ [0x004, 0x00C, 0x01C, 0x038, 0x03C, 0x058, 0x05C, 0x074, 0x078, 0x07C],
      s.incoming = wordRead off :: rest → step s = .next { s with incoming := rest, returned := some 0#32 })

/-- R62: an access with offset bits [1:0] != 0 or an offset >= 0x080 is refused and never rounded, and so is one that is not
a whole word (R61); every other access is a step. -/
def Obligations.UncarriedAccessIsRefused : Prop :=
  ∀ (s : State) (a : Access) (rest : List HostEvent), s.incoming = .access a :: rest →
    ((a.offset % 4 ≠ 0 ∨ 0x80 ≤ a.offset ∨ a.width ≠ .word) → ∃ r, step s = .refused r) ∧
    ((a.offset % 4 = 0 ∧ a.offset < 0x80 ∧ a.width = .word) → ∃ t, step s = .next t)

/-- No step faults, and a step is refused only when the host presents an access the port cannot carry, or any access while
reset is applied (R225, R253; logs 2, 6). Every access while reset is applied is refused, whatever it is (R253,
93_implementation_defined.md part 1; log 6). -/
def Obligations.OnlyUncarriedEventsStopAStep : Prop :=
  (∀ s : State,
    (∃ t, step s = .next t) ∨
    (∃ e rest r, s.incoming = e :: rest ∧ ¬ e.Carried ∧ step s = .refused r)) ∧
  (∀ (s : State) (a : Access) (rest : List HostEvent), s.incoming = .accessInReset a :: rest →
    step s = .refused .accessDuringReset)

/-- A run over input the port carries never stops: after any number of steps there is a state, and each step took the next
of the host's events, then idle steps once they are used up (R66, R268; log 2).
(R268 is marked in the spec as derived.) -/
def Obligations.CarriedInputRunsForever : Prop :=
  ∀ (k : Nat) (s : State), s.CarriedInput →
    ∃ t, Host.Core.run Sys2Proof.core k s = .next t ∧ t.incoming = s.incoming.drop k

/-- A step runs the decoded instruction: when the host's next access writes to CMD or RXDATA a word that decodes to `i`, the
step is `exec i`, with the access taken from `incoming` and `returned` cleared, as for every write
(R66, R81; logs 1, 3). -/
def Obligations.StepRunsDecodedInstruction : Prop :=
  ∀ (s : State) (rest : List HostEvent) (p : InstrPort) (w : Word) (i : Instr),
    s.incoming = wordWrite (match p with | .cmd => 0x004 | .rxdata => 0x00C) w :: rest → decode p w = .instr i →
    step s = exec i { s with incoming := rest, returned := none }

/-- Host events are performed one at a time, in the order presented, and no command or push touches what comes next
(R66). -/
def Obligations.EventsTakenInOrder : Prop :=
  (∀ (s t : State) (e : HostEvent) (rest : List HostEvent), s.incoming = e :: rest → step s = .next t →
    t.incoming = rest) ∧
  (∀ (i : Instr) (s t : State), exec i s = .next t → t.incoming = s.incoming ∧ t.returned = s.returned)

/-! ### Encoding -/

/-- R85: the decoder accepts exactly the words `legal` accepts. -/
def Obligations.DecoderAcceptsExactlyLegalWords : Prop :=
  ∀ c : Word, (∃ i, decode .cmd c = .instr i) ↔ legalWord c

/-- R86: every word `legal` rejects raises IllegalCommand: ERR = 4 and nothing else is touched (R81's last sentence). -/
def Obligations.IllegalWordOnlyWritesErr : Prop :=
  ∀ (s : State) (rest : List HostEvent) (c : Word), ¬ legalWord c → s.incoming = wordWrite 0x004 c :: rest →
    step s = .next { s with incoming := rest, returned := none, err := errCode 4#4 }

/-- R87: a word written to RXDATA pushes its low byte, its upper bits are ignored, and none is illegal. -/
def Obligations.PushWordPushesLowByte : Prop :=
  (∀ d : Word, decode .rxdata d = .instr (.push (d.extractLsb' 0 8))) ∧
  (∀ (s : State) (rest : List HostEvent) (d : Word), s.incoming = wordWrite 0x00C d :: rest →
    step s = exec (.push (d.extractLsb' 0 8)) { s with incoming := rest, returned := none })

/-- Decode and encode agree: every well-formed instruction, with every operand, is what its own word decodes to at its
own port (R80-R87). -/
def Obligations.DecodeOfEncode : Prop :=
  ∀ i : Instr, i.wellFormed = true → decode i.port (encode i) = .instr i

/-- Each command has one word: a legal command word is the encoding of the instruction it decodes to, which is well formed
and a C-format one (R82-R85). -/
def Obligations.EncodeOfDecodedCommand : Prop :=
  ∀ (c : Word) (i : Instr), decode .cmd c = .instr i → i.wellFormed = true ∧ i.port = .cmd ∧ encode i = c

/-- The C-format rows of opcode_table.json (match, mask): every legal word matches exactly one row, the row of the
instruction it decodes to, and no two rows have a word in common. -/
def Obligations.OpcodeTableRowsAgree : Prop :=
  (∀ (c : Word) (i : Instr), decode .cmd c = .instr i →
    match i with
    | .nop => c &&& 0xFFFFFFFF#32 = 0x00000000#32
    | .crc8 hi lo => c &&& 0xFF0000FF#32 = 0x00000001#32 ∧ c.extractLsb' 16 8 = hi ∧ c.extractLsb' 8 8 = lo
    | .convT r => c &&& 0xFF0000FF#32 = 0x00000002#32 ∧ c.extractLsb' 8 16 = r
    | .convH r => c &&& 0xFF0000FF#32 = 0x00000003#32 ∧ c.extractLsb' 8 16 = r
    | .validate n => c &&& 0xFFFFFCFF#32 = 0x00000004#32 ∧ c.extractLsb' 8 2 = n ∧ n ≠ 0#2 ∧ n ≠ 3#2
    | .flush => c &&& 0xFFFFFFFF#32 = 0x00000005#32
    | .openSession => c &&& 0xFFFFFFFF#32 = 0x00000010#32
    | .closeSession => c &&& 0xFFFFFFFF#32 = 0x00000011#32
    | .setMode m => c &&& 0xFFFFFCFF#32 = 0x00000012#32 ∧ c.extractLsb' 8 2 = m ∧ m ≠ 3#2
    | .readStatus => c &&& 0xFFFFFFFF#32 = 0x00000013#32
    | .readTH => c &&& 0xFFFFFFFF#32 = 0x00000014#32
    | .push _ => False) ∧
  List.Pairwise (fun row row' : Word × Word => ∀ c : Word, ¬ (c &&& row.2 = row.1 ∧ c &&& row'.2 = row'.1))
    [(0x00000000#32, 0xFFFFFFFF#32), (0x00000001#32, 0xFF0000FF#32), (0x00000002#32, 0xFF0000FF#32),
      (0x00000003#32, 0xFF0000FF#32), (0x00000004#32, 0xFFFFFCFF#32), (0x00000005#32, 0xFFFFFFFF#32),
      (0x00000010#32, 0xFFFFFFFF#32), (0x00000011#32, 0xFFFFFFFF#32), (0x00000012#32, 0xFFFFFCFF#32),
      (0x00000013#32, 0xFFFFFFFF#32), (0x00000014#32, 0xFFFFFFFF#32)]

/-- Words of 95_test_vectors.md §2.4 and 30_encoding.md R89, written out, decode to the instructions they stand for. -/
def Obligations.SampleWordsDecode : Prop :=
  decode .cmd 0x00000000#32 = .instr .nop ∧ decode .cmd 0x00BEEF01#32 = .instr (.crc8 0xBE#8 0xEF#8) ∧
  decode .cmd 0x00FFFF02#32 = .instr (.convT 0xFFFF#16) ∧ decode .cmd 0x0066A203#32 = .instr (.convH 0x66A2#16) ∧
  decode .cmd 0x00000204#32 = .instr (.validate 2#2) ∧ decode .cmd 0x00000010#32 = .instr .openSession ∧
  decode .cmd 0x00000212#32 = .instr (.setMode 2#2) ∧ decode .cmd 0x00000014#32 = .instr .readTH ∧
  decode .cmd 0x00000304#32 = .illegal .badGroupCount ∧ decode .cmd 0x01000000#32 = .illegal .reservedBits ∧
  decode .rxdata 0x00000181#32 = .instr (.push 0x81#8)

/-! ### The checksum -/

/-- R160: crc8 is the pseudocode's computation, written over natural numbers: initial value 0xFF, the bytes in transmission
order, eight rounds a byte, each truncated to 8 bits, no final XOR. -/
def Obligations.CrcFollowsPseudocode : Prop :=
  let round (crc : Nat) : Nat :=
    if crc &&& 0x80 ≠ 0 then ((crc <<< 1) &&& 0xFF) ^^^ 0x31 else (crc <<< 1) &&& 0xFF
  ∀ a b : Byte,
    (crc8 a b).toNat = [a, b].foldl (fun crc v => round^[8] (crc ^^^ v.toNat)) 0xFF ∧ (crc8 a b).toNat ≤ 255

/-- R162: the 8-round inner loop is the table T of 95_test_vectors.md §2.1, and crc8(a, b) = T[T[0xFF xor a] xor b].
(R162 is marked in the spec as derived.) -/
def Obligations.CrcIsItsTable : Prop :=
  (∀ x : Byte, crcTable[x.toNat]? = some (crcRounds 8 x)) ∧
  (∀ a b : Byte, (crcTable[(0xFF#8 ^^^ a).toNat]?.bind fun y => crcTable[(y ^^^ b).toNat]?) = some (crc8 a b))

/-- R163 (a) to (d): T is linear and a bijection whose fixed points are 0x00 and 0xEF; crc8 is affine in each byte, a
bijection in each byte alone; swapping two different bytes keeps it exactly when their XOR is 0xEF.
(R163 is marked in the spec as derived.) -/
def Obligations.CrcAlgebraicLaws : Prop :=
  (∀ x y : Byte, crcRounds 8 (x ^^^ y) = crcRounds 8 x ^^^ crcRounds 8 y) ∧
  Function.Bijective (crcRounds 8) ∧
  (∀ x : Byte, crcRounds 8 x = x ↔ x = 0x00#8 ∨ x = 0xEF#8) ∧
  (∀ a b : Byte, crc8 a b = 0x81#8 ^^^ crcRounds 8 (crcRounds 8 a) ^^^ crcRounds 8 b) ∧
  (∀ a : Byte, Function.Bijective (crc8 a)) ∧ (∀ b : Byte, Function.Bijective fun a => crc8 a b) ∧
  (∀ a b : Byte, a ≠ b → (crc8 a b = crc8 b a ↔ a ^^^ b = 0xEF#8))

/-- R163 (e): in a group that passes the check, flipping any one, two or three of its 24 bits makes the check fail, and
some flip of four bits does not. A flipped bit `k` is in the first byte for k < 8, the second for k < 16, else the third.
(R163 is marked in the spec as derived.) -/
def Obligations.CrcDetectsUpToThreeBitErrors : Prop :=
  let flip (ks : List (Fin 24)) : Word := ks.foldl (fun m k => m ^^^ (1#32 <<< k.val)) 0#32
  let passes (d0 d1 c : Byte) (m : Word) : Prop :=
    crc8 (d0 ^^^ m.extractLsb' 0 8) (d1 ^^^ m.extractLsb' 8 8) = c ^^^ m.extractLsb' 16 8
  (∀ (d0 d1 c : Byte) (ks : List (Fin 24)), crc8 d0 d1 = c → ks.Nodup → ks ≠ [] → ks.length ≤ 3 →
    ¬ passes d0 d1 c (flip ks)) ∧
  (∃ ks : List (Fin 24), ks.Nodup ∧ ks.length = 4 ∧ ∀ d0 d1 c : Byte, crc8 d0 d1 = c → passes d0 d1 c (flip ks))

/-- R164: a group `d0 d1 c` passes the frame check exactly when CRC8 of d0, d1 leaves CRC_OUT = c.
(R164 is marked in the spec as derived.) -/
def Obligations.FrameCheckIsCrc8 : Prop :=
  ∀ s t u : State, s.rxcnt = 3#3 → s.ovf = false →
    exec (.validate 1#2) s = .next t → exec (.crc8 s.buf[0] s.buf[1]) s = .next u →
    (t.err.code = 0#4 ↔ u.crcOut = s.buf[2])

/-! ### The scaler -/

/-- R181 and R183, with R180 and R182: the milli-unit values are the integers nearest 1000 times the physical value, which is
the numerator over 65535, and lie at least 1/26214 from a half-way point (times 26214: 1); the ranges; the widths of the
largest products.
(R181 and R183 are marked in the spec as derived.) -/
def Obligations.MilliUnitsAreNearest : Prop :=
  ∀ r : RawWord,
    (tnum r = 175 * (r.toNat : Int) - 45 * 65535 ∧ hnum r = 100 * (r.toNat : Int)) ∧
    (tmilli r = (175000 * (r.toNat : Int) + 32767).fdiv 65535 - 45000 ∧
      hmilli r = (100000 * (r.toNat : Int) + 32767).fdiv 65535) ∧
    2 * |65535 * tmilli r - 1000 * tnum r| < 65535 ∧ 2 * |65535 * hmilli r - 1000 * hnum r| < 65535 ∧
    (∀ k : Int, 1 ≤ |2 * 35000 * (r.toNat : Int) - (2 * k + 1) * 13107| ∧
      1 ≤ |2 * 20000 * (r.toNat : Int) - (2 * k + 1) * 13107|) ∧
    (-2949075 ≤ tnum r ∧ tnum r ≤ 8519550) ∧ (0 ≤ hnum r ∧ hnum r ≤ 6553500) ∧
    (-45000 ≤ tmilli r ∧ tmilli r ≤ 130000) ∧ (0 ≤ hmilli r ∧ hmilli r ≤ 100000) ∧
    (175000 * r.toNat + 32767 ≤ 11468657767 ∧ 175000 * 65535 + 32767 = 11468657767 ∧ 2 ^ 33 ≤ 11468657767) ∧
    2 ^ 32 ≤ 100000 * 65535 + 32767

/-- R187: the endpoints, and that the numerators are strictly increasing and the milli-unit values non-decreasing. R189: the
divisor is 65535; dividing by 2^16 would give 129997 at r = 65535, where the block gives 130000.
(R187 and R189 are marked in the spec as derived.) -/
def Obligations.ScalerEndpointsAndMonotone : Prop :=
  (tnum 0#16 = -2949075 ∧ tmilli 0#16 = -45000 ∧ tnum 0xFFFF#16 = 8519550 ∧ tmilli 0xFFFF#16 = 130000 ∧
    hnum 0#16 = 0 ∧ hmilli 0#16 = 0 ∧ hnum 0xFFFF#16 = 6553500 ∧ hmilli 0xFFFF#16 = 100000) ∧
  (∀ a b : RawWord, a.toNat < b.toNat →
    tnum a < tnum b ∧ hnum a < hnum b ∧ tmilli a ≤ tmilli b ∧ hmilli a ≤ hmilli b) ∧
  (calTScale = 65535 ∧ calHScale = 65535 ∧ (175000 * (0xFFFF#16).toNat + 32768) / 2 ^ 16 - 45000 = 129997)

/-- R186: no value is clamped: the four functions are their formulas for every raw word, and CONV_T and CONV_H write exactly
those values and report no condition; tmilli lies inside [-40000, 125000] exactly for the raw words 0x0751 to 0xF8AE, and the
words outside give values down to -45000 and up to 130000.
(R186 is marked in the spec as derived.) -/
def Obligations.ConversionIsNotClamped : Prop :=
  (∀ r : RawWord,
    tnum r = 175 * (r.toNat : Int) - 2949075 ∧ tmilli r = (175000 * (r.toNat : Int) + 32767) / 65535 - 45000 ∧
    hnum r = 100 * (r.toNat : Int) ∧ hmilli r = (100000 * (r.toNat : Int) + 32767) / 65535) ∧
  (∀ r : RawWord, (-40000 ≤ tmilli r ∧ tmilli r ≤ 125000) ↔ 0x0751 ≤ r.toNat ∧ r.toNat ≤ 0xF8AE) ∧
  (∀ r : RawWord, r.toNat ≤ 0x0750 → -45000 ≤ tmilli r ∧ tmilli r ≤ -40001) ∧
  (∀ r : RawWord, 0xF8AF ≤ r.toNat → 125001 ≤ tmilli r ∧ tmilli r ≤ 130000) ∧
  tmilli 0x0000#16 = -45000 ∧ tmilli 0x0750#16 = -40001 ∧ tmilli 0x0751#16 = -39998 ∧ tmilli 0xF8AE#16 = 124998 ∧
  tmilli 0xF8AF#16 = 125001 ∧ tmilli 0xFFFF#16 = 130000 ∧
  (∀ (r : RawWord) (s t : State), exec (.convT r) s = .next t →
    t.tNum.toInt = tnum r ∧ t.tMilli.toInt = tmilli r ∧ t.err = errCode 0#4) ∧
  (∀ (r : RawWord) (s t : State), exec (.convH r) s = .next t →
    t.hNum.toInt = hnum r ∧ t.hMilli.toInt = hmilli r ∧ t.err = errCode 0#4)

/-- R188: for every raw word the milli-unit values equal SAT's formulas evaluated in binary64 and rounded. That SAT's "float"
is IEEE-754 binary64 is PRESUMED (log 14).
(R188 is marked in the spec as derived.) -/
def Obligations.MilliUnitsAgreeWithBinary64 : Prop :=
  ∀ r : RawWord, tmilli r = Binary64.tmilliRef r ∧ hmilli r = Binary64.hmilliRef r

/-! ### The pure datapath commands -/

/-- R161: CRC8 writes CRC_OUT and ERR and nothing else, for every pair of bytes and whatever EN is; its word; it is illegal
exactly when RSV != 0; no other instruction changes CRC_OUT; its corner values and R163 (d)'s law of swapped bytes. -/
def Obligations.Crc8Result : Prop :=
  (∀ (hi lo : Byte) (s : State), exec (.crc8 hi lo) s = .next { s with crcOut := crc8 hi lo, err := errCode 0#4 }) ∧
  (∀ hi lo : Byte, decode .cmd (0#8 ++ hi ++ lo ++ 0x01#8) = .instr (.crc8 hi lo)) ∧
  (∀ c : Word, c.extractLsb' 0 8 = 0x01#8 → ((∃ i, decode .cmd c = .instr i) ↔ c.extractLsb' 24 8 = 0#8)) ∧
  (∀ (i : Instr) (s t : State), exec i s = .next t → t.crcOut ≠ s.crcOut → ∃ hi lo, i = .crc8 hi lo) ∧
  (crc8 0x00#8 0x00#8 = 0x81#8 ∧ crc8 0xFF#8 0x00#8 = 0x00#8 ∧ crc8 0xFF#8 0xFF#8 = 0xAC#8 ∧
    crc8 0xBE#8 0xEF#8 = 0x92#8) ∧
  (∀ a b : Byte, crc8 a b = crc8 b a ↔ a ^^^ b = 0x00#8 ∨ a ^^^ b = 0xEF#8)

/-- R184: CONV_T writes T_NUM, T_MILLI and ERR and nothing else, whatever EN is, with values that do not wrap; its word; it
is illegal exactly when RSV != 0; its corner values. -/
def Obligations.ConvTResult : Prop :=
  (∀ (r : RawWord) (s : State), exec (.convT r) s = .next { s with
    tNum := BitVec.ofInt 32 (175 * (r.toNat : Int) - 2949075),
    tMilli := BitVec.ofInt 32 ((175000 * (r.toNat : Int) + 32767) / 65535 - 45000),
    err := errCode 0#4 }) ∧
  (∀ (r : RawWord) (s t : State), exec (.convT r) s = .next t →
    t.tNum.toInt = 175 * (r.toNat : Int) - 2949075 ∧
    t.tMilli.toInt = (175000 * (r.toNat : Int) + 32767) / 65535 - 45000) ∧
  (∀ r : RawWord, decode .cmd (0#8 ++ r ++ 0x02#8) = .instr (.convT r)) ∧
  (∀ c : Word, c.extractLsb' 0 8 = 0x02#8 → ((∃ i, decode .cmd c = .instr i) ↔ c.extractLsb' 24 8 = 0#8)) ∧
  (tnum 0x3333#16 = -655350 ∧ tmilli 0x3333#16 = -10000 ∧ tmilli 0x6666#16 = 25000 ∧ tmilli 0x8000#16 = 42501)

/-- R185: CONV_H writes H_NUM, H_MILLI and ERR and nothing else, whatever EN is, with values that do not wrap; its word; it
is illegal exactly when RSV != 0; its corner values. -/
def Obligations.ConvHResult : Prop :=
  (∀ (r : RawWord) (s : State), exec (.convH r) s = .next { s with
    hNum := BitVec.ofInt 32 (100 * (r.toNat : Int)),
    hMilli := BitVec.ofInt 32 ((100000 * (r.toNat : Int) + 32767) / 65535),
    err := errCode 0#4 }) ∧
  (∀ (r : RawWord) (s t : State), exec (.convH r) s = .next t →
    t.hNum.toInt = 100 * (r.toNat : Int) ∧ t.hMilli.toInt = (100000 * (r.toNat : Int) + 32767) / 65535) ∧
  (∀ r : RawWord, decode .cmd (0#8 ++ r ++ 0x03#8) = .instr (.convH r)) ∧
  (∀ c : Word, c.extractLsb' 0 8 = 0x03#8 → ((∃ i, decode .cmd c = .instr i) ↔ c.extractLsb' 24 8 = 0#8)) ∧
  (hnum 1#16 = 100 ∧ hmilli 1#16 = 2 ∧ hmilli 0x8000#16 = 50001 ∧ hmilli 0x3333#16 = 20000)

/-! ### The reply buffer -/

/-- R120: PUSH appends its byte while RXCNT < 6, else drops it and sets OVF; nothing else changes, ERR among it, whatever EN
is; a byte below RXCNT is never changed; only d[7:0] counts. -/
def Obligations.PushResult : Prop :=
  (∀ (b : Byte) (s : State), s.rxcnt.toNat < 6 →
    ∃ t, exec (.push b) s = .next t ∧ t = { s with buf := t.buf, rxcnt := t.rxcnt } ∧
      t.rxcnt.toNat = s.rxcnt.toNat + 1 ∧
      ∀ i : Fin 6, t.buf[i] = if i.val = s.rxcnt.toNat then b else s.buf[i]) ∧
  (∀ (b : Byte) (s : State), 6 ≤ s.rxcnt.toNat → exec (.push b) s = .next { s with ovf := true }) ∧
  (∀ d : Word, decode .rxdata d = .instr (.push (d.extractLsb' 0 8)))

/-- Pushes one after another from an emptied buffer (R120, R25, R26): up to six bytes stand in BUF in the order pushed with
RXCNT their number; of more, the first six are kept, the rest dropped, and OVF is set. Nothing else changes. -/
def Obligations.PushesFillBuffer : Prop :=
  ∀ (bs : List Byte) (s : State), s.rxcnt = 0#3 → s.ovf = false →
    ∃ t, execAll (bs.map .push) s = .next t ∧ t = { s with buf := t.buf, rxcnt := t.rxcnt, ovf := t.ovf } ∧
      t.rxcnt.toNat = min bs.length 6 ∧ t.ovf = decide (6 < bs.length) ∧
      ∀ i : Fin 6, t.buf[i] = bs.getD i.val s.buf[i]

/-- R121: FLUSH empties the count, clears OVF and ERR, keeps every byte of BUF and everything else, whatever EN is; its only
legal word. -/
def Obligations.FlushResult : Prop :=
  (∀ s : State, exec .flush s = .next { s with rxcnt := 0#3, ovf := false, err := errCode 0#4 }) ∧
  decode .cmd 0x00000005#32 = .instr .flush ∧
  (∀ c : Word, c.extractLsb' 0 8 = 0x05#8 → ((∃ i, decode .cmd c = .instr i) ↔ c = 0x00000005#32))

/-- R128: VALIDATE n, every outcome, whatever EN is: success with one and with two groups, LENGTH, INTEGRITY on the first bad
group, ILLEGAL for n = 0 and 3; its only legal words; its corner values. -/
def Obligations.ValidateResult : Prop :=
  (∀ s : State, s.ovf = false → s.rxcnt.toNat = 3 → crc8 s.buf[0] s.buf[1] = s.buf[2] →
    exec (.validate 1#2) s = .next { s with
      rxcnt := 0#3, ovf := false, word0 := s.buf[0] ++ s.buf[1], err := errCode 0#4 }) ∧
  (∀ s : State, s.ovf = false → s.rxcnt.toNat = 6 → crc8 s.buf[0] s.buf[1] = s.buf[2] →
    crc8 s.buf[3] s.buf[4] = s.buf[5] →
    exec (.validate 2#2) s = .next { s with
      rxcnt := 0#3, ovf := false, word0 := s.buf[0] ++ s.buf[1], word1 := s.buf[3] ++ s.buf[4], err := errCode 0#4 }) ∧
  (∀ (n : BitVec 2) (s : State), n = 1#2 ∨ n = 2#2 → (s.ovf = true ∨ s.rxcnt.toNat ≠ 3 * n.toNat) →
    exec (.validate n) s = .next { s with rxcnt := 0#3, ovf := false, err := errCode 3#4 }) ∧
  (∀ (n : BitVec 2) (s : State), n = 1#2 ∨ n = 2#2 → s.ovf = false → s.rxcnt.toNat = 3 * n.toNat →
    crc8 s.buf[0] s.buf[1] ≠ s.buf[2] →
    exec (.validate n) s = .next { s with
      rxcnt := 0#3, ovf := false, err := errIntegrity 0#2 s.buf[2] (crc8 s.buf[0] s.buf[1]) }) ∧
  (∀ s : State, s.ovf = false → s.rxcnt.toNat = 6 → crc8 s.buf[0] s.buf[1] = s.buf[2] →
    crc8 s.buf[3] s.buf[4] ≠ s.buf[5] →
    exec (.validate 2#2) s = .next { s with
      rxcnt := 0#3, ovf := false, err := errIntegrity 1#2 s.buf[5] (crc8 s.buf[3] s.buf[4]) }) ∧
  (∀ (n : BitVec 2) (s : State), n = 0#2 ∨ n = 3#2 → exec (.validate n) s = .next { s with err := errCode 4#4 }) ∧
  (decode .cmd 0x00000104#32 = .instr (.validate 1#2) ∧ decode .cmd 0x00000204#32 = .instr (.validate 2#2)) ∧
  (∀ c : Word, c.extractLsb' 0 8 = 0x04#8 →
    ((∃ i, decode .cmd c = .instr i) ↔ c = 0x00000104#32 ∨ c = 0x00000204#32)) ∧
  (crc8 0xFF#8 0x00#8 = 0x00#8 ∧ crc8 0x00#8 0x00#8 = 0x81#8 ∧ crc8 0xFF#8 0xFF#8 = 0xAC#8)

/-! ### Session commands -/

/-- R129: READ_STATUS, every outcome: success writes WORD0, RXCNT, OVF and ERR alone; StateError without a consume; LENGTH;
INTEGRITY with GROUP 0; its only legal word. -/
def Obligations.ReadStatusResult : Prop :=
  (∀ s : State, s.en = true → s.ovf = false → s.rxcnt.toNat = 3 → crc8 s.buf[0] s.buf[1] = s.buf[2] →
    exec .readStatus s = .next { s with
      rxcnt := 0#3, ovf := false, word0 := s.buf[0] ++ s.buf[1], err := errCode 0#4 }) ∧
  (∀ s : State, s.en = false → exec .readStatus s = .next { s with err := errCode 2#4 }) ∧
  (∀ s : State, s.en = true → (s.ovf = true ∨ s.rxcnt.toNat ≠ 3) →
    exec .readStatus s = .next { s with rxcnt := 0#3, ovf := false, err := errCode 3#4 }) ∧
  (∀ s : State, s.en = true → s.ovf = false → s.rxcnt.toNat = 3 → crc8 s.buf[0] s.buf[1] ≠ s.buf[2] →
    exec .readStatus s = .next { s with
      rxcnt := 0#3, ovf := false, err := errIntegrity 0#2 s.buf[2] (crc8 s.buf[0] s.buf[1]) }) ∧
  decode .cmd 0x00000013#32 = .instr .readStatus ∧
  (∀ c : Word, c.extractLsb' 0 8 = 0x13#8 → ((∃ i, decode .cmd c = .instr i) ↔ c = 0x00000013#32))

/-- R130: READ_TH, every outcome, in every mode: success writes both words, the four conversions of them, RXCNT, OVF and ERR
alone; StateError without a consume; LENGTH; INTEGRITY on group 0 first, then group 1, with no word written; its only
legal word. -/
def Obligations.ReadTHResult : Prop :=
  (∀ s : State, s.en = true → s.ovf = false → s.rxcnt.toNat = 6 → crc8 s.buf[0] s.buf[1] = s.buf[2] →
    crc8 s.buf[3] s.buf[4] = s.buf[5] →
    exec .readTH s = .next { s with
      rxcnt := 0#3, ovf := false, word0 := s.buf[0] ++ s.buf[1], word1 := s.buf[3] ++ s.buf[4],
      tNum := BitVec.ofInt 32 (175 * ((s.buf[0] ++ s.buf[1]).toNat : Int) - 2949075),
      tMilli := BitVec.ofInt 32 ((175000 * ((s.buf[0] ++ s.buf[1]).toNat : Int) + 32767) / 65535 - 45000),
      hNum := BitVec.ofInt 32 (100 * ((s.buf[3] ++ s.buf[4]).toNat : Int)),
      hMilli := BitVec.ofInt 32 ((100000 * ((s.buf[3] ++ s.buf[4]).toNat : Int) + 32767) / 65535),
      err := errCode 0#4 }) ∧
  (∀ s : State, s.en = false → exec .readTH s = .next { s with err := errCode 2#4 }) ∧
  (∀ s : State, s.en = true → (s.ovf = true ∨ s.rxcnt.toNat ≠ 6) →
    exec .readTH s = .next { s with rxcnt := 0#3, ovf := false, err := errCode 3#4 }) ∧
  (∀ s : State, s.en = true → s.ovf = false → s.rxcnt.toNat = 6 → crc8 s.buf[0] s.buf[1] ≠ s.buf[2] →
    exec .readTH s = .next { s with
      rxcnt := 0#3, ovf := false, err := errIntegrity 0#2 s.buf[2] (crc8 s.buf[0] s.buf[1]) }) ∧
  (∀ s : State, s.en = true → s.ovf = false → s.rxcnt.toNat = 6 → crc8 s.buf[0] s.buf[1] = s.buf[2] →
    crc8 s.buf[3] s.buf[4] ≠ s.buf[5] →
    exec .readTH s = .next { s with
      rxcnt := 0#3, ovf := false, err := errIntegrity 1#2 s.buf[5] (crc8 s.buf[3] s.buf[4]) }) ∧
  decode .cmd 0x00000014#32 = .instr .readTH ∧
  (∀ c : Word, c.extractLsb' 0 8 = 0x14#8 → ((∃ i, decode .cmd c = .instr i) ↔ c = 0x00000014#32))

/-- R200: OPEN, every outcome: success opens the session in mode High with the probe's word in WORD0; StateError when open,
without a consume and with MODE kept; a failed probe leaves EN, MODE and WORD0 as they were and the buffer consumed; its only
legal word. -/
def Obligations.OpenResult : Prop :=
  (∀ s : State, s.en = false → s.ovf = false → s.rxcnt.toNat = 3 → crc8 s.buf[0] s.buf[1] = s.buf[2] →
    exec .openSession s = .next { s with
      rxcnt := 0#3, ovf := false, word0 := s.buf[0] ++ s.buf[1], mode := .high, en := true, err := errCode 0#4 }) ∧
  (∀ s : State, s.en = true → exec .openSession s = .next { s with err := errCode 2#4 }) ∧
  (∀ s : State, s.en = false → (s.ovf = true ∨ s.rxcnt.toNat ≠ 3) →
    exec .openSession s = .next { s with rxcnt := 0#3, ovf := false, err := errCode 3#4 }) ∧
  (∀ s : State, s.en = false → s.ovf = false → s.rxcnt.toNat = 3 → crc8 s.buf[0] s.buf[1] ≠ s.buf[2] →
    exec .openSession s = .next { s with
      rxcnt := 0#3, ovf := false, err := errIntegrity 0#2 s.buf[2] (crc8 s.buf[0] s.buf[1]) }) ∧
  decode .cmd 0x00000010#32 = .instr .openSession ∧
  (∀ c : Word, c.extractLsb' 0 8 = 0x10#8 → ((∃ i, decode .cmd c = .instr i) ↔ c = 0x00000010#32))

/-- R201: CLOSE always succeeds, consumes and closes, keeps MODE and every result; a second CLOSE gives the same state;
after it READ_STATUS, READ_TH and SETMODE raise StateError; its only legal word. -/
def Obligations.CloseResult : Prop :=
  (∀ s : State, exec .closeSession s = .next { s with en := false, rxcnt := 0#3, ovf := false, err := errCode 0#4 }) ∧
  (∀ s t : State, exec .closeSession s = .next t → exec .closeSession t = .next t ∧
    ∀ i : Instr, i = .readStatus ∨ i = .readTH ∨ i = .setMode 0#2 ∨ i = .setMode 1#2 ∨ i = .setMode 2#2 →
      exec i t = .next { t with err := errCode 2#4 }) ∧
  decode .cmd 0x00000011#32 = .instr .closeSession ∧
  (∀ c : Word, c.extractLsb' 0 8 = 0x11#8 → ((∃ i, decode .cmd c = .instr i) ↔ c = 0x00000011#32))

/-- R102: SETMODE m, every outcome: with a session open it writes MODE and ERR alone, RXCNT, OVF and BUF kept; StateError when
closed; ILLEGAL for m = 3 before any check of state; its only legal words; DESC_TH after `setmode low`. -/
def Obligations.SetModeResult : Prop :=
  (∀ s : State, s.en = true →
    exec (.setMode 0#2) s = .next { s with mode := .high, err := errCode 0#4 } ∧
    exec (.setMode 1#2) s = .next { s with mode := .medium, err := errCode 0#4 } ∧
    exec (.setMode 2#2) s = .next { s with mode := .low, err := errCode 0#4 }) ∧
  (∀ (m : BitVec 2) (s : State), m ≠ 3#2 → s.en = false → exec (.setMode m) s = .next { s with err := errCode 2#4 }) ∧
  (∀ s : State, exec (.setMode 3#2) s = .next { s with err := errCode 4#4 }) ∧
  (∀ m : BitVec 2, m ≠ 3#2 → decode .cmd (0#22 ++ m ++ 0x12#8) = .instr (.setMode m)) ∧
  (∀ c : Word, c.extractLsb' 0 8 = 0x12#8 →
    ((∃ i, decode .cmd c = .instr i) ↔ c = 0x00000012#32 ∨ c = 0x00000112#32 ∨ c = 0x00000212#32)) ∧
  (∀ s t : State, s.en = true → exec (.setMode 2#2) s = .next t → portRead t 0x030 = 0x06042416#32)

/-- R202: NOP clears ERR and does nothing else, whatever EN is; its only legal word is 0; it is the pseudo-instruction
`clrerr`. -/
def Obligations.NopResult : Prop :=
  (∀ s : State, exec .nop s = .next { s with err := errCode 0#4 }) ∧
  decode .cmd 0x00000000#32 = .instr .nop ∧
  (∀ c : Word, c.extractLsb' 0 8 = 0x00#8 → ((∃ i, decode .cmd c = .instr i) ↔ c = 0x00000000#32)) ∧
  Pseudo.clrErr.expand = [.op .nop]

/-- R203: which instructions need which value of EN. Without it a command raises StateError and does nothing else; every
other instruction never reports StateError unless ERR held it already (PUSH keeps ERR). -/
def Obligations.SessionNeeds : Prop :=
  (∀ s : State, s.en = true → exec .openSession s = .next { s with err := errCode 2#4 }) ∧
  (∀ (i : Instr) (s : State), i = .readStatus ∨ i = .readTH ∨ (∃ m, i = .setMode m ∧ m ≠ 3#2) → s.en = false →
    exec i s = .next { s with err := errCode 2#4 }) ∧
  (∀ (i : Instr) (s t : State), neededSession i = none ∨ neededSession i = some s.en → i.port = .cmd →
    exec i s = .next t → t.err.code ≠ 2#4) ∧
  (∀ (b : Byte) (s t : State), exec (.push b) s = .next t → t.err = s.err)

/-! ### Rules about every command -/

/-- R222: after a CMD write ERR is that of the first check that fails, in the order ILLEGAL, STATE, LENGTH, INTEGRITY by
increasing group, and NONE where none fails. -/
def Obligations.FirstFailingCheckIsReported : Prop :=
  ∀ (s t : State) (rest : List HostEvent) (c : Word), s.incoming = wordWrite 0x004 c :: rest → step s = .next t →
    t.err = match decode .cmd c with
      | .illegal _ => errCode 4#4
      | .instr i => reportedErr i s

/-- R223: every command writes ERR once, 0 on success and the error's word on failure; a failed command does nothing else but
the consume of LENGTH and INTEGRITY. -/
def Obligations.ErrorsArePrecise : Prop :=
  (∀ (i : Instr) (s t : State), i.port = .cmd → exec i s = .next t →
    (t.err.code = 0#4 ∧ t.err = errCode 0#4) ∨
    t = { s with
      rxcnt := 0#3, ovf := false, err := errIntegrity 0#2 s.buf[2] (crc8 s.buf[0] s.buf[1]) } ∨
    t = { s with
      rxcnt := 0#3, ovf := false, err := errIntegrity 1#2 s.buf[5] (crc8 s.buf[3] s.buf[4]) } ∨
    t = { s with err := errCode 2#4 } ∨
    t = { s with rxcnt := 0#3, ovf := false, err := errCode 3#4 } ∨
    t = { s with err := errCode 4#4 }) ∧
  (∀ s : State, portRead s 0x008 = 0x00#8 ++ s.err.computed ++ s.err.received ++ 0#2 ++ s.err.group ++ s.err.code)

/-- R123: a command that reports an error writes none of WORD0, WORD1, T_NUM, T_MILLI, H_NUM, H_MILLI. -/
def Obligations.AllOrNothingCommit : Prop :=
  ∀ (i : Instr) (s t : State), i.port = .cmd → exec i s = .next t → ¬ t.succeeded →
    t.word0 = s.word0 ∧ t.word1 = s.word1 ∧ t.tNum = s.tNum ∧ t.tMilli = s.tMilli ∧ t.hNum = s.hNum ∧
      t.hMilli = s.hMilli

/-- The consume of R127: a consuming command that passes its ILLEGAL and STATE checks leaves RXCNT = 0, OVF = 0 and BUF as it
was, whatever its outcome; every command but FLUSH and CLOSE that does not get so far leaves all three as they were. -/
def Obligations.EveryReplyIsUsedAtMostOnce : Prop :=
  ∀ (i : Instr) (s t : State), i.port = .cmd → exec i s = .next t → t.buf = s.buf ∧
    (((∃ n, neededBytes i = some n) ∧ t.err.code ≠ 2#4 ∧ t.err.code ≠ 4#4 → t.rxcnt = 0#3 ∧ t.ovf = false) ∧
     ((neededBytes i = none ∧ i ≠ .flush ∧ i ≠ .closeSession) ∨ t.err.code = 2#4 ∨ t.err.code = 4#4 →
        t.rxcnt = s.rxcnt ∧ t.ovf = s.ovf))

/-- The column "written by" of 10_state.md §2, over every instruction and every row of that table: no register is changed by
an instruction the column does not name for it. -/
def Obligations.RegistersHaveOnlyTheirWriters : Prop :=
  ∀ (i : Instr) (s t : State), exec i s = .next t → ∀ r : StoredReg, r ∉ mayWrite i → r.Same s t

/-- What opens and closes a session, over every step: EN becomes 1 only by a write of the OPEN word, becomes 0 only by a write
of the CLOSE word or by reset (R23, R250). -/
def Obligations.OnlyOpenAndCloseChangeEn : Prop :=
  ∀ s t : State, step s = .next t →
    (s.en = false → t.en = true → ∃ rest, s.incoming = wordWrite 0x004 0x00000010#32 :: rest) ∧
    (s.en = true → t.en = false →
      ∃ rest, s.incoming = wordWrite 0x004 0x00000011#32 :: rest ∨ s.incoming = .reset :: rest)

/-- ERR is not sticky and no command reads it (R224, R40): what a command does is the same whatever ERR held, and a push
carries ERR along unchanged. -/
def Obligations.ErrNeverSteersACommand : Prop :=
  ∀ (i : Instr) (s : State) (e : ErrRecord),
    (i.port = .cmd → exec i { s with err := e } = exec i s) ∧
    (∀ t, i.port = .rxdata → exec i s = .next t → exec i { s with err := e } = .next { t with err := e })

/-- Stale bytes of BUF steer nothing (R27): replacing the bytes at indices >= RXCNT changes no register an instruction leaves
but BUF, and leaves each byte below RXCNT equal. -/
def Obligations.StaleBytesAreNeverRead : Prop :=
  ∀ (i : Instr) (s t : State) (buf : ReplyBuffer), (∀ k : Fin 6, k.val < s.rxcnt.toNat → buf[k] = s.buf[k]) →
    exec i s = .next t →
    ∃ u, exec i { s with buf := buf } = .next u ∧ u = { t with buf := u.buf } ∧
      ∀ k : Fin 6, k.val < t.rxcnt.toNat → u.buf[k] = t.buf[k]

/-- MODE affects only which descriptor is read (R104): every instruction that does not set MODE does the same in every mode,
and only STATUS and DESC_TH read differently.
(R104 is marked in the spec as derived.) -/
def Obligations.ModeOnlySelectsDescriptor : Prop :=
  (∀ (i : Instr) (s t : State) (m : Mode), StoredReg.mode ∉ mayWrite i → exec i s = .next t →
    exec i { s with mode := m } = .next { t with mode := m }) ∧
  (∀ (s : State) (m : Mode) (off : Nat), off / 4 ≠ 0 → off / 4 ≠ 12 → portRead { s with mode := m } off = portRead s off)

/-- The whole pipeline (R131, steps 4 to 7): with a session open and the buffer empty, pushing a reply of two groups whose third
bytes are their checksums and then READ_TH gives both words and their conversions, and ERR = 0. For every data byte.
(R131 is marked in the spec as derived.) -/
def Obligations.ValidReplyIsReadAndConverted : Prop :=
  ∀ (s : State) (a b c d : Byte), s.en = true → s.rxcnt = 0#3 → s.ovf = false →
    ∃ t, execAll [.push a, .push b, .push (crc8 a b), .push c, .push d, .push (crc8 c d), .readTH] s = .next t ∧
      t.word0.toNat = 256 * a.toNat + b.toNat ∧ t.word1.toNat = 256 * c.toNat + d.toNat ∧
      t.tNum.toInt = tnum t.word0 ∧ t.tMilli.toInt = tmilli t.word0 ∧
      t.hNum.toInt = hnum t.word1 ∧ t.hMilli.toInt = hmilli t.word1 ∧
      t.rxcnt = 0#3 ∧ t.ovf = false ∧ t.err = errCode 0#4 ∧ t.en = true ∧ t.mode = s.mode ∧ t.crcOut = s.crcOut

/-- Boot (R254, steps 4 and 5): in a closed block with an empty buffer the pushes of the probe's reply, OPEN and the read of
ERR open the session, in mode High with the status word in WORD0, exactly when the third byte is the checksum of the first two;
otherwise EN stays 0 and ERR reports INTEGRITY. The host reads ERR as the last of the five accesses.
(R254 is marked in the spec as derived.) -/
def Obligations.BootOpensOnValidProbe : Prop :=
  ∀ (s : State) (rest : List HostEvent) (b0 b1 b2 : Byte), s.en = false → s.rxcnt = 0#3 → s.ovf = false →
    s.incoming = (bootSequence b0 b1 b2).map AsmLine.event ++ rest →
    ∃ t, Host.Core.run Sys2Proof.core 5 s = .next t ∧ t.incoming = rest ∧ t.rxcnt = 0#3 ∧ t.ovf = false ∧
      (crc8 b0 b1 = b2 → t.en = true ∧ t.mode = .high ∧ t.word0 = b0 ++ b1 ∧ t.returned = some 0#32) ∧
      (crc8 b0 b1 ≠ b2 → t.en = false ∧ t.mode = s.mode ∧ t.word0 = s.word0 ∧
        t.returned = some (0#8 ++ crc8 b0 b1 ++ b2 ++ 0x01#8))

/-- R42: every stored bit is readable; two states that read alike at every offset hold the same value in every register (they
may differ in the host's side of the port only). -/
def Obligations.EveryStoredBitIsReadable : Prop :=
  ∀ s t : State, (∀ k < 32, portRead s (4 * k) = portRead t (4 * k)) →
    s = { t with incoming := s.incoming, returned := s.returned }

/-! ### Invariants -/

/-- Both invariants hold right after reset: R41's, and that the two forms of each converted value agree.
(R41 is marked in the spec as derived.) -/
def Obligations.ResetMeetsInvariants : Prop := State.reset.Legal ∧ State.reset.Scaled

/-- R41: every step from a legal state, whatever the host presents, leads to a legal state.
(R41 is marked in the spec as derived.) -/
def Obligations.EveryStepKeepsLegal : Prop :=
  ∀ s t : State, s.Legal → step s = .next t → t.Legal

/-- R41: every state reached from reset, whatever the host presents, is legal.
(R41 is marked in the spec as derived.) -/
def Obligations.ReachableStatesAreLegal : Prop :=
  ∀ (k : Nat) (events : List HostEvent) (t : State),
    Host.Core.run Sys2Proof.core k { State.reset with incoming := events } = .next t → t.Legal

/-- Every step keeps the numerators in range and each milli-unit value the integer nearest 1000 times its numerator over 65535
(R30-R33, R181, R183). -/
def Obligations.EveryStepKeepsScaled : Prop :=
  ∀ s t : State, s.Scaled → step s = .next t → t.Scaled

/-! ### Platform and host notation -/

/-- No rule depends on CVS_BASE (R231): at every base, the open one among them, an access at base + offset leads to a next
state, or is refused, exactly as the access at the offset does, with the same state or the same reason. That an access below
the base is refused, and under which name, is the model's own choice (DESIGN CHOICE, log 9). -/
def Obligations.PlacementDoesNotMatter : Prop :=
  (∀ (base off : Nat) (dir : Direction) (width : AccessWidth) (s : State),
    (∀ q : Placed, Placed.accessAt dir width (base + off) { base := base, block := s } = .next q ↔
      ∃ t, performAccess { dir := dir, offset := off, width := width } s = .next t ∧ q = { base := base, block := t }) ∧
    (∀ r : Refusal, Placed.accessAt dir width (base + off) { base := base, block := s } = .refused r ↔
      performAccess { dir := dir, offset := off, width := width } s = .refused r)) ∧
  (∀ (addr : Nat) (dir : Direction) (width : AccessWidth) (s : State),
    hostAccess dir width addr s = Placed.accessAt dir width addr { base := Config.cvsBase, block := s }) ∧
  (∀ (p : Placed) (dir : Direction) (width : AccessWidth) (addr : Nat), addr < p.base →
    Placed.accessAt dir width addr p = .refused .outOfRangeAccess)

/-- An access of a platform of blocks changes at most one of them and leaves every other block and every placement as it was
(R232: no state is shared). That the block which answers is the first whose window holds the address is the model's own choice
(DESIGN CHOICE, log 10; unsafe where windows overlap). -/
def Obligations.BlocksAreIndependent : Prop :=
  ∀ (dir : Direction) (width : AccessWidth) (addr : Nat) (ps qs : List Placed),
    platformAccess dir width addr ps = .next qs →
    ∃ before p after s, ps = before ++ p :: after ∧ qs = before ++ { p with block := s } :: after ∧
      (∀ q ∈ before, q.covers addr = false) ∧ p.covers addr = true ∧
      performAccess { dir := dir, offset := addr - p.base, width := width } p.block = .next s

/-- R89 and R90: the access and the word of every line of the host-transaction assembly, and the expansions of the
pseudo-instructions as the accesses the host presents. -/
def Obligations.AssemblyLinesAndPseudoInstructions : Prop :=
  (∀ r : PortReg, (AsmLine.rd r).event = wordRead r.offset ∧ ∀ v, (AsmLine.wr r v).event = wordWrite r.offset v) ∧
  (∀ r : PortReg, regAt r.offset = some r ∧ r.offset % 4 = 0 ∧ r.offset < 0x80) ∧
  (∀ b : Byte, (AsmLine.op (.push b)).event = wordWrite 0x00C (0#24 ++ b)) ∧
  (AsmLine.op .nop).event = wordWrite 0x004 0x00000000#32 ∧
  (∀ hi lo : Byte, (AsmLine.op (.crc8 hi lo)).event = wordWrite 0x004 (0x00#8 ++ hi ++ lo ++ 0x01#8)) ∧
  (∀ r : RawWord, (AsmLine.op (.convT r)).event = wordWrite 0x004 (0x00#8 ++ r ++ 0x02#8)) ∧
  (∀ r : RawWord, (AsmLine.op (.convH r)).event = wordWrite 0x004 (0x00#8 ++ r ++ 0x03#8)) ∧
  (∀ n : BitVec 2, (AsmLine.op (.validate n)).event = wordWrite 0x004 (0x00#8 ++ (0#14 ++ n) ++ 0x04#8)) ∧
  (AsmLine.op .flush).event = wordWrite 0x004 0x00000005#32 ∧
  (AsmLine.op .openSession).event = wordWrite 0x004 0x00000010#32 ∧
  (AsmLine.op .closeSession).event = wordWrite 0x004 0x00000011#32 ∧
  ((AsmLine.op (.setMode 0#2)).event = wordWrite 0x004 0x00000012#32 ∧
    (AsmLine.op (.setMode 1#2)).event = wordWrite 0x004 0x00000112#32 ∧
    (AsmLine.op (.setMode 2#2)).event = wordWrite 0x004 0x00000212#32) ∧
  (AsmLine.op .readStatus).event = wordWrite 0x004 0x00000013#32 ∧
  (AsmLine.op .readTH).event = wordWrite 0x004 0x00000014#32 ∧
  Pseudo.readT.expand.map AsmLine.event = [wordWrite 0x004 0x00000014#32, wordRead 0x008, wordRead 0x024] ∧
  Pseudo.readH.expand.map AsmLine.event = [wordWrite 0x004 0x00000014#32, wordRead 0x008, wordRead 0x02C] ∧
  Pseudo.readTHAll.expand.map AsmLine.event =
    [wordWrite 0x004 0x00000014#32, wordRead 0x008, wordRead 0x024, wordRead 0x02C] ∧
  Pseudo.readStatusWord.expand.map AsmLine.event = [wordWrite 0x004 0x00000013#32, wordRead 0x008, wordRead 0x010] ∧
  Pseudo.clrErr.expand.map AsmLine.event = [wordWrite 0x004 0x00000000#32] ∧
  (∀ hi lo : Byte, (Pseudo.pushG hi lo).expand.map AsmLine.event =
    [wordWrite 0x00C (0#24 ++ hi), wordWrite 0x00C (0#24 ++ lo), wordWrite 0x00C (0#24 ++ crc8 hi lo)])
end

