-- ==== Sys2Proof/Laws/Binary64.lean ====
section
/-! SUPPORT. How far the rounded result of one binary64 operation lies from the exact one, and which results are exact. -/

namespace Sys2Proof.Machine.Binary64

/-- `roundNat n d` is within half of 1 of n / d. -/
theorem roundNat_err (n : Nat) {d : Nat} (hd : 0 < d) :
    2 * |((roundNat n d : Nat) : Int) * d - n| ≤ d := by
  have hn := Nat.div_add_mod n d
  have hm := Nat.mod_lt n hd
  generalize n / d = q at hn
  have hq : roundNat n d = q + 1 ∧ d ≤ 2 * (n % d) ∨ roundNat n d = q ∧ 2 * (n % d) ≤ d := by
    unfold roundNat
    have : n / d = q := by
      rw [← hn]; simp [Nat.mul_add_div hd, Nat.div_eq_of_lt hm]
    split <;> omega
  have hi : (n : Int) = d * q + (n % d : Nat) := by exact_mod_cast hn.symm
  obtain ⟨hr, hb⟩ | ⟨hr, hb⟩ := hq <;> rw [hr, hi]
  · rw [show ((q + 1 : Nat) : Int) * d - (d * q + (n % d : Nat)) = d - (n % d : Nat) by push_cast; ring]
    rw [abs_of_nonneg (by omega)]; omega
  · rw [show (q : Int) * d - (d * q + (n % d : Nat)) = -((n % d : Nat) : Int) by ring, abs_neg,
      abs_of_nonneg (by omega)]
    omega

/-- The relative error of `roundRatio` is at most 2^-53. -/
theorem roundRatio_err (n : Int) {d : Nat} (hd : 0 < d) (h : n = 0 ∨ d ≤ n.natAbs * 2 ^ 64) :
    |(roundRatio n d).scaled * d - n * 2 ^ 116| ≤ |n| * 2 ^ 63 := by
  obtain rfl | hle := h
  · simp [roundRatio]
  · have hpos : n.natAbs * 2 ^ 64 / d ≠ 0 := (Nat.div_pos hle hd).ne'
    have hlog := (Nat.le_div_iff_mul_le hd).1 (Nat.log2_self_le hpos)
    unfold roundRatio
    dsimp only
    generalize Nat.log2 (n.natAbs * 2 ^ 64 / d) = l at hlog
    have hr := roundNat_err (n.natAbs * 2 ^ 116) (d := d * 2 ^ l) (by positivity)
    generalize roundNat (n.natAbs * 2 ^ 116) (d * 2 ^ l) = m at hr
    have hs : n.sign * ((m * 2 ^ l : Nat) : Int) * d - n * 2 ^ 116 =
        n.sign * ((m : Int) * ((d * 2 ^ l : Nat) : Int) - ((n.natAbs * 2 ^ 116 : Nat) : Int)) := by
      have hn := Int.sign_mul_natAbs n
      generalize n.natAbs = a at hn
      push_cast
      linear_combination (2 ^ 116 : Int) * hn
    rw [hs, abs_mul]
    have h1 : |n.sign| ≤ 1 := by
      obtain h | h | h := Int.sign_trichotomy n <;> rw [h] <;> decide
    have h2 : (((d * 2 ^ l : Nat)) : Int) ≤ |n| * 2 ^ 64 := by
      rw [← Int.natCast_natAbs]
      rw [Nat.mul_comm] at hlog
      exact_mod_cast hlog
    have h3 : ∀ x : Int, |n.sign| * |x| ≤ |x| := fun x => by nlinarith [abs_nonneg x]
    have := h3 ((m : Int) * ((d * 2 ^ l : Nat) : Int) - ((n.natAbs * 2 ^ 116 : Nat) : Int))
    linarith

/-- `toNearest x` is within half of 1 of the value of `x`. -/
theorem toNearest_err (x : Binary64) : 2 * |x.toNearest * 2 ^ 116 - x.scaled| ≤ 2 ^ 116 := by
  have hr := roundNat_err x.scaled.natAbs (d := 2 ^ 116) (by positivity)
  unfold toNearest
  generalize roundNat x.scaled.natAbs (2 ^ 116) = m at hr
  have hs : x.scaled.sign * (m : Int) * 2 ^ 116 - x.scaled =
      x.scaled.sign * ((m : Int) * ((2 ^ 116 : Nat) : Int) - (x.scaled.natAbs : Int)) := by
    have hn := Int.sign_mul_natAbs x.scaled
    generalize x.scaled.natAbs = a at hn
    push_cast
    linear_combination hn
  have h1 : |x.scaled.sign| ≤ 1 := by
    obtain h | h | h := Int.sign_trichotomy x.scaled <;> rw [h] <;> decide
  rw [hs, abs_mul]
  have h2 := abs_nonneg ((m : Int) * ((2 ^ 116 : Nat) : Int) - (x.scaled.natAbs : Int))
  have h3 := mul_le_mul_of_nonneg_right h1 h2
  rw [one_mul] at h3
  have h4 : ((2 ^ 116 : Nat) : Int) = 2 ^ 116 := by norm_num
  linarith

/-! ### Operations on small integers are exact -/

theorem roundNat_mul (q : Nat) {d : Nat} (hd : 0 < d) : roundNat (q * d) d = q := by
  simp [roundNat, Nat.mul_div_cancel q hd]
  omega

theorem log2_le_of_lt {a k : Nat} (h : a < 2 ^ k) : Nat.log2 a ≤ k := by
  by_cases h0 : a = 0
  · subst h0; simp
  · exact ((Nat.log2_lt h0).2 h).le

/-- An integer of magnitude below 2^52 is rounded to itself. -/
theorem roundRatio_exact (k : Int) {d : Nat} (hd : 0 < d) (hk : k.natAbs < 2 ^ 52) :
    roundRatio (k * d) d = ⟨k * 2 ^ 116⟩ := by
  unfold roundRatio
  dsimp only
  rw [show (k * (d : Int)).natAbs = k.natAbs * d by simp [Int.natAbs_mul],
    show k.natAbs * d * 2 ^ 64 / d = k.natAbs * 2 ^ 64 by rw [Nat.mul_right_comm, Nat.mul_div_cancel _ hd]]
  have hl : Nat.log2 (k.natAbs * 2 ^ 64) ≤ 116 := log2_le_of_lt (by omega)
  generalize Nat.log2 (k.natAbs * 2 ^ 64) = l at hl
  have e : k.natAbs * d * 2 ^ 116 = (k.natAbs * 2 ^ (116 - l)) * (d * 2 ^ l) := by
    rw [show (2 : Nat) ^ 116 = 2 ^ (116 - l) * 2 ^ l by rw [← Nat.pow_add]; congr 1; omega]
    ring
  rw [e, roundNat_mul _ (by positivity), Int.sign_mul,
    Int.sign_eq_one_of_pos (show (0 : Int) < (d : Int) by omega), mul_one, Nat.mul_assoc, ← Nat.pow_add,
    Nat.sub_add_cancel hl]
  congr 1
  have := Int.sign_mul_natAbs k
  push_cast
  rw [← mul_assoc, ← Int.natCast_natAbs, this]

theorem ofInt_eq {k : Int} (hk : k.natAbs < 2 ^ 52) : ofInt k = ⟨k * 2 ^ 116⟩ := by
  simpa [ofInt] using roundRatio_exact k (d := 1) (by decide) hk

theorem mul_ofInt {j k : Int} (hj : j.natAbs < 2 ^ 52) (hk : k.natAbs < 2 ^ 52) (h : (j * k).natAbs < 2 ^ 52) :
    mul (ofInt j) (ofInt k) = ⟨j * k * 2 ^ 116⟩ := by
  rw [ofInt_eq hj, ofInt_eq hk, ← roundRatio_exact (j * k) (d := 2 ^ 232) (by positivity) h, mul]
  congr 1
  push_cast
  ring

/-- The error of a division of integers. -/
theorem div_err (k : Int) {j : Nat} (hj : 0 < j) (hjk : j < 2 ^ 64) :
    |(div ⟨k * 2 ^ 116⟩ ⟨(j : Int) * 2 ^ 116⟩).scaled * j - k * 2 ^ 116| ≤ |k| * 2 ^ 63 := by
  have e : ((j : Int) * 2 ^ 116).natAbs = j * 2 ^ 116 := by rw [Int.natAbs_mul]; rfl
  have hs : ((j : Int) * 2 ^ 116).sign = 1 := Int.sign_eq_one_of_pos (by positivity)
  have hr := roundRatio_err (k * 2 ^ 116) (d := j * 2 ^ 116) (by positivity) (by
    by_cases h0 : k = 0
    · left; simp [h0]
    · right
      rw [Int.natAbs_mul]
      have : 1 ≤ k.natAbs := by omega
      rw [show ((2 : Int) ^ 116).natAbs = 2 ^ 116 from rfl]
      nlinarith)
  rw [div]
  simp only [e, hs, mul_one]
  generalize (roundRatio (k * 2 ^ 116) (j * 2 ^ 116)).scaled = x at hr
  rw [show ((j * 2 ^ 116 : Nat) : Int) = (j : Int) * 2 ^ 116 from rfl,
    show x * ((j : Int) * 2 ^ 116) - k * 2 ^ 116 * 2 ^ 116 = (x * j - k * 2 ^ 116) * 2 ^ 116 by ring,
    abs_mul, abs_mul, show |(2 : Int) ^ 116| = 2 ^ 116 from rfl] at hr
  nlinarith

end Sys2Proof.Machine.Binary64
end

