-- ==== Sys2Proof/Laws/Word.lean ====
section
/-! SUPPORT. Facts about words, raw words and bytes that hold whatever the machine is: extension, concatenation, and the
enumeration of the bytes. -/

namespace Sys2Proof

/-- A test that every one of the 256 bytes passes holds of every byte. -/
theorem byte_forall (p : Byte → Bool) (h : (List.range 256).all (fun n => p (BitVec.ofNat 8 n)) = true) (x : Byte) :
    p x = true := by
  have := List.all_eq_true.1 h x.toNat (by simp; omega)
  simpa using this

theorem byte_zext (b : Byte) : b.setWidth 32 = 0#24 ++ b := by
  apply BitVec.eq_of_toNat_eq
  rw [BitVec.toNat_append, BitVec.toNat_setWidth]
  have := b.isLt
  simp; omega

theorem rawWord_zext (r : RawWord) : r.setWidth 32 = 0#16 ++ r := by
  apply BitVec.eq_of_toNat_eq
  rw [BitVec.toNat_append, BitVec.toNat_setWidth]
  have := r.isLt
  simp; omega

/-- The first byte of a raw word is its high byte (R67). -/
theorem append_high (a b : Byte) : (a ++ b : RawWord).extractLsb' 8 8 = a := by
  ext i hi
  simp only [BitVec.getElem_extractLsb', BitVec.getLsbD_append]
  have : ¬ 8 + i < 8 := by omega
  simp [this, BitVec.getLsbD_eq_getElem hi]

/-- The second byte of a raw word is its low byte (R67). -/
theorem append_low (a b : Byte) : (a ++ b : RawWord).extractLsb' 0 8 = b := by
  ext i hi
  simp only [BitVec.getElem_extractLsb', BitVec.getLsbD_append]
  simp [hi]

/-- A raw word as a number: big-endian (R67). -/
theorem append_toNat (a b : Byte) : (a ++ b : RawWord).toNat = 256 * a.toNat + b.toNat := by
  rw [BitVec.toNat_append, Nat.shiftLeft_eq, Nat.mul_comm]
  exact (Nat.two_pow_add_eq_or_of_lt b.isLt a.toNat).symm

/-- A two-bit operand stands in the low two bits of IMM16. -/
theorem pair_low (n : BitVec 2) : (n.setWidth 16).extractLsb' 0 2 = n := by
  revert n; decide

/-- The other bits of IMM16 are zero beside a two-bit operand. -/
theorem pair_unused (n : BitVec 2) : (n.setWidth 16).extractLsb' 2 14 = 0#14 := by
  revert n; decide

/-- A word is its top byte, its middle half and its low byte (R82). -/
theorem word_fields (x : Word) : x.extractLsb' 24 8 ++ x.extractLsb' 8 16 ++ x.extractLsb' 0 8 = x := by
  ext i hi
  simp only [BitVec.getElem_append, BitVec.getElem_extractLsb']
  have hx : x.getLsbD i = x[i] := BitVec.getLsbD_eq_getElem hi
  by_cases h1 : i < 8
  · simp [h1, hx]
  · by_cases h2 : i - 8 < 16
    · have e : 8 + (i - 8) = i := by omega
      simp [h1, h2, e, hx]
    · have e : 24 + (i - 8 - 16) = i := by omega
      simp [h1, h2, e, hx]

/-- Sign extension of a value that fits in 32 bits loses nothing (R8). -/
theorem ofInt_toInt {v : Int} (h : -2147483648 ≤ v ∧ v < 2147483648) : (BitVec.ofInt 32 v).toInt = v := by
  rw [BitVec.toInt_ofInt, Int.bmod_eq_of_le] <;> omega

end Sys2Proof
end

