-- ==== Sys2Proof/Laws/Checksum.lean ====
section
/-! SUPPORT. One round of the checksum as a shift and a conditional XOR, and its linearity over XOR. -/

namespace Sys2Proof.Machine

/-- A round in terms of bit 7 (R160). -/
theorem crcRound_eq (x : Byte) : crcRound x = (x <<< 1) ^^^ (if x.msb then Config.crcPoly else 0#8) := by
  simpa using byte_forall (fun x => crcRound x == (x <<< 1) ^^^ (if x.msb then Config.crcPoly else 0#8))
    (by decide +kernel) x

theorem crcRound_xor (x y : Byte) : crcRound (x ^^^ y) = crcRound x ^^^ crcRound y := by
  simp only [crcRound_eq, BitVec.msb_xor, BitVec.shiftLeft_xor_distrib]
  generalize x <<< 1 = p, y <<< 1 = q
  cases x.msb <;> cases y.msb <;> simp [BitVec.xor_assoc, BitVec.xor_comm] <;> ac_rfl

end Sys2Proof.Machine
end

