-- ==== Sys2Proof/Laws/Decode.lean ====
section
/-! SUPPORT. The fields of a word built by `commandWord`, and what the decoder does with each opcode. -/

namespace Sys2Proof

variable (o : Opcode) (imm : RawWord)

@[simp] theorem rsvField_commandWord : rsvField (commandWord o imm) = 0#8 := by
  ext i hi
  simp only [rsvField, commandWord, BitVec.getElem_extractLsb', BitVec.getLsbD_append]
  have : ¬ 24 + i < 8 := by omega
  have : ¬ 24 + i - 8 < 16 := by omega
  simp_all

@[simp] theorem immField_commandWord : immField (commandWord o imm) = imm := by
  ext i hi
  simp only [immField, commandWord, BitVec.getElem_extractLsb', BitVec.getLsbD_append]
  have : ¬ 8 + i < 8 := by omega
  simp [hi]

@[simp] theorem opField_commandWord : opField (commandWord o imm) = o.byte := by
  ext i hi
  simp only [opField, commandWord, BitVec.getElem_extractLsb', BitVec.getLsbD_append]
  simp [hi]

/-! ### The operands are fields of IMM16 -/

theorem immHigh_eq (c : Word) : immHigh c = (immField c).extractLsb' 8 8 := by
  ext i hi
  simp only [immHigh, immField, BitVec.getElem_extractLsb', BitVec.getLsbD_extractLsb']
  have : 8 + i < 16 := by omega
  simp [this, ← Nat.add_assoc]

theorem immLow_eq (c : Word) : immLow c = (immField c).extractLsb' 0 8 := by
  ext i hi
  simp only [immLow, immField, BitVec.getElem_extractLsb', BitVec.getLsbD_extractLsb']
  have : i < 16 := by omega
  simp [this]

theorem immPair_eq (c : Word) : immPair c = (immField c).extractLsb' 0 2 := by
  ext i hi
  simp only [immPair, immField, BitVec.getElem_extractLsb', BitVec.getLsbD_extractLsb']
  have : i < 16 := by omega
  simp [this]

theorem immUnused_eq (c : Word) : immUnused c = (immField c).extractLsb' 2 14 := by
  ext i hi
  simp only [immUnused, immField, BitVec.getElem_extractLsb', BitVec.getLsbD_extractLsb']
  have : 2 + i < 16 := by omega
  simp [this, ← Nat.add_assoc]

/-! ### The opcode map -/

/-- The opcode map read from the byte inverts the assignment of the byte (R84). -/
@[simp] theorem opcodeOf_byte : opcodeOf o.byte = some o := by
  cases o <;> rfl

/-- A byte names an opcode only if it is the byte assigned to it (R84). -/
theorem byte_of_opcodeOf {b : Byte} {o : Opcode} (h : opcodeOf b = some o) : b = o.byte := by
  unfold opcodeOf at h
  repeat' split at h
  all_goals first
    | (cases h; assumption)
    | cases h

/-- A command word whose RSV is zero decodes by its opcode's form. -/
theorem decodeCommand_commandWord : decodeCommand (commandWord o imm) = decodeOperand o (commandWord o imm) := by
  simp [decodeCommand]

/-- What decodes as an instruction has RSV = 0 and an assigned opcode (R85). -/
theorem decodeCommand_eq_instr {c : Word} {i : Instr} (h : decodeCommand c = .instr i) :
    rsvField c = 0#8 ∧ ∃ o, opField c = o.byte ∧ decodeOperand o c = .instr i := by
  unfold decodeCommand at h
  split at h
  · cases h
  · next hr =>
    refine ⟨by simpa using hr, ?_⟩
    split at h
    · cases h
    · next o ho => exact ⟨o, byte_of_opcodeOf ho, h⟩

end Sys2Proof
end

