-- ==== Sys2Proof/Laws/State.lean ====
section
/-! SUPPORT. One lemma per field per register update, so that no later proof unfolds a record update. -/

namespace Sys2Proof.Machine

variable (s : State)

/-! ### raise -/

@[simp] theorem raise_en (e : CommandError) : (raise e s).en = s.en := rfl
@[simp] theorem raise_mode (e : CommandError) : (raise e s).mode = s.mode := rfl
@[simp] theorem raise_rxcnt (e : CommandError) : (raise e s).rxcnt = s.rxcnt := rfl
@[simp] theorem raise_ovf (e : CommandError) : (raise e s).ovf = s.ovf := rfl
@[simp] theorem raise_buf (e : CommandError) : (raise e s).buf = s.buf := rfl
@[simp] theorem raise_word0 (e : CommandError) : (raise e s).word0 = s.word0 := rfl
@[simp] theorem raise_word1 (e : CommandError) : (raise e s).word1 = s.word1 := rfl
@[simp] theorem raise_crcOut (e : CommandError) : (raise e s).crcOut = s.crcOut := rfl
@[simp] theorem raise_tNum (e : CommandError) : (raise e s).tNum = s.tNum := rfl
@[simp] theorem raise_tMilli (e : CommandError) : (raise e s).tMilli = s.tMilli := rfl
@[simp] theorem raise_hNum (e : CommandError) : (raise e s).hNum = s.hNum := rfl
@[simp] theorem raise_hMilli (e : CommandError) : (raise e s).hMilli = s.hMilli := rfl
@[simp] theorem raise_err (e : CommandError) : (raise e s).err = .ofError e := rfl
@[simp] theorem raise_incoming (e : CommandError) : (raise e s).incoming = s.incoming := rfl
@[simp] theorem raise_returned (e : CommandError) : (raise e s).returned = s.returned := rfl

/-! ### succeed -/

@[simp] theorem succeed_en : (succeed s).en = s.en := rfl
@[simp] theorem succeed_mode : (succeed s).mode = s.mode := rfl
@[simp] theorem succeed_rxcnt : (succeed s).rxcnt = s.rxcnt := rfl
@[simp] theorem succeed_ovf : (succeed s).ovf = s.ovf := rfl
@[simp] theorem succeed_buf : (succeed s).buf = s.buf := rfl
@[simp] theorem succeed_word0 : (succeed s).word0 = s.word0 := rfl
@[simp] theorem succeed_word1 : (succeed s).word1 = s.word1 := rfl
@[simp] theorem succeed_crcOut : (succeed s).crcOut = s.crcOut := rfl
@[simp] theorem succeed_tNum : (succeed s).tNum = s.tNum := rfl
@[simp] theorem succeed_tMilli : (succeed s).tMilli = s.tMilli := rfl
@[simp] theorem succeed_hNum : (succeed s).hNum = s.hNum := rfl
@[simp] theorem succeed_hMilli : (succeed s).hMilli = s.hMilli := rfl
@[simp] theorem succeed_err : (succeed s).err = .none := rfl
@[simp] theorem succeed_incoming : (succeed s).incoming = s.incoming := rfl
@[simp] theorem succeed_returned : (succeed s).returned = s.returned := rfl

/-! ### consume -/

@[simp] theorem consume_en : (consume s).en = s.en := rfl
@[simp] theorem consume_mode : (consume s).mode = s.mode := rfl
@[simp] theorem consume_rxcnt : (consume s).rxcnt = 0#3 := rfl
@[simp] theorem consume_ovf : (consume s).ovf = false := rfl
@[simp] theorem consume_buf : (consume s).buf = s.buf := rfl
@[simp] theorem consume_word0 : (consume s).word0 = s.word0 := rfl
@[simp] theorem consume_word1 : (consume s).word1 = s.word1 := rfl
@[simp] theorem consume_crcOut : (consume s).crcOut = s.crcOut := rfl
@[simp] theorem consume_tNum : (consume s).tNum = s.tNum := rfl
@[simp] theorem consume_tMilli : (consume s).tMilli = s.tMilli := rfl
@[simp] theorem consume_hNum : (consume s).hNum = s.hNum := rfl
@[simp] theorem consume_hMilli : (consume s).hMilli = s.hMilli := rfl
@[simp] theorem consume_err : (consume s).err = s.err := rfl
@[simp] theorem consume_incoming : (consume s).incoming = s.incoming := rfl
@[simp] theorem consume_returned : (consume s).returned = s.returned := rfl

/-! ### setEn -/

@[simp] theorem setEn_en (v : Bool) : (setEn v s).en = v := rfl
@[simp] theorem setEn_mode (v : Bool) : (setEn v s).mode = s.mode := rfl
@[simp] theorem setEn_rxcnt (v : Bool) : (setEn v s).rxcnt = s.rxcnt := rfl
@[simp] theorem setEn_ovf (v : Bool) : (setEn v s).ovf = s.ovf := rfl
@[simp] theorem setEn_buf (v : Bool) : (setEn v s).buf = s.buf := rfl
@[simp] theorem setEn_word0 (v : Bool) : (setEn v s).word0 = s.word0 := rfl
@[simp] theorem setEn_word1 (v : Bool) : (setEn v s).word1 = s.word1 := rfl
@[simp] theorem setEn_crcOut (v : Bool) : (setEn v s).crcOut = s.crcOut := rfl
@[simp] theorem setEn_tNum (v : Bool) : (setEn v s).tNum = s.tNum := rfl
@[simp] theorem setEn_tMilli (v : Bool) : (setEn v s).tMilli = s.tMilli := rfl
@[simp] theorem setEn_hNum (v : Bool) : (setEn v s).hNum = s.hNum := rfl
@[simp] theorem setEn_hMilli (v : Bool) : (setEn v s).hMilli = s.hMilli := rfl
@[simp] theorem setEn_err (v : Bool) : (setEn v s).err = s.err := rfl
@[simp] theorem setEn_incoming (v : Bool) : (setEn v s).incoming = s.incoming := rfl
@[simp] theorem setEn_returned (v : Bool) : (setEn v s).returned = s.returned := rfl

/-! ### setMode -/

@[simp] theorem setMode_en (m : Mode) : (setMode m s).en = s.en := rfl
@[simp] theorem setMode_mode (m : Mode) : (setMode m s).mode = m := rfl
@[simp] theorem setMode_rxcnt (m : Mode) : (setMode m s).rxcnt = s.rxcnt := rfl
@[simp] theorem setMode_ovf (m : Mode) : (setMode m s).ovf = s.ovf := rfl
@[simp] theorem setMode_buf (m : Mode) : (setMode m s).buf = s.buf := rfl
@[simp] theorem setMode_word0 (m : Mode) : (setMode m s).word0 = s.word0 := rfl
@[simp] theorem setMode_word1 (m : Mode) : (setMode m s).word1 = s.word1 := rfl
@[simp] theorem setMode_crcOut (m : Mode) : (setMode m s).crcOut = s.crcOut := rfl
@[simp] theorem setMode_tNum (m : Mode) : (setMode m s).tNum = s.tNum := rfl
@[simp] theorem setMode_tMilli (m : Mode) : (setMode m s).tMilli = s.tMilli := rfl
@[simp] theorem setMode_hNum (m : Mode) : (setMode m s).hNum = s.hNum := rfl
@[simp] theorem setMode_hMilli (m : Mode) : (setMode m s).hMilli = s.hMilli := rfl
@[simp] theorem setMode_err (m : Mode) : (setMode m s).err = s.err := rfl
@[simp] theorem setMode_incoming (m : Mode) : (setMode m s).incoming = s.incoming := rfl
@[simp] theorem setMode_returned (m : Mode) : (setMode m s).returned = s.returned := rfl

/-! ### setWord0 -/

@[simp] theorem setWord0_en (w : RawWord) : (setWord0 w s).en = s.en := rfl
@[simp] theorem setWord0_mode (w : RawWord) : (setWord0 w s).mode = s.mode := rfl
@[simp] theorem setWord0_rxcnt (w : RawWord) : (setWord0 w s).rxcnt = s.rxcnt := rfl
@[simp] theorem setWord0_ovf (w : RawWord) : (setWord0 w s).ovf = s.ovf := rfl
@[simp] theorem setWord0_buf (w : RawWord) : (setWord0 w s).buf = s.buf := rfl
@[simp] theorem setWord0_word0 (w : RawWord) : (setWord0 w s).word0 = w := rfl
@[simp] theorem setWord0_word1 (w : RawWord) : (setWord0 w s).word1 = s.word1 := rfl
@[simp] theorem setWord0_crcOut (w : RawWord) : (setWord0 w s).crcOut = s.crcOut := rfl
@[simp] theorem setWord0_tNum (w : RawWord) : (setWord0 w s).tNum = s.tNum := rfl
@[simp] theorem setWord0_tMilli (w : RawWord) : (setWord0 w s).tMilli = s.tMilli := rfl
@[simp] theorem setWord0_hNum (w : RawWord) : (setWord0 w s).hNum = s.hNum := rfl
@[simp] theorem setWord0_hMilli (w : RawWord) : (setWord0 w s).hMilli = s.hMilli := rfl
@[simp] theorem setWord0_err (w : RawWord) : (setWord0 w s).err = s.err := rfl
@[simp] theorem setWord0_incoming (w : RawWord) : (setWord0 w s).incoming = s.incoming := rfl
@[simp] theorem setWord0_returned (w : RawWord) : (setWord0 w s).returned = s.returned := rfl

/-! ### setWord1 -/

@[simp] theorem setWord1_en (w : RawWord) : (setWord1 w s).en = s.en := rfl
@[simp] theorem setWord1_mode (w : RawWord) : (setWord1 w s).mode = s.mode := rfl
@[simp] theorem setWord1_rxcnt (w : RawWord) : (setWord1 w s).rxcnt = s.rxcnt := rfl
@[simp] theorem setWord1_ovf (w : RawWord) : (setWord1 w s).ovf = s.ovf := rfl
@[simp] theorem setWord1_buf (w : RawWord) : (setWord1 w s).buf = s.buf := rfl
@[simp] theorem setWord1_word0 (w : RawWord) : (setWord1 w s).word0 = s.word0 := rfl
@[simp] theorem setWord1_word1 (w : RawWord) : (setWord1 w s).word1 = w := rfl
@[simp] theorem setWord1_crcOut (w : RawWord) : (setWord1 w s).crcOut = s.crcOut := rfl
@[simp] theorem setWord1_tNum (w : RawWord) : (setWord1 w s).tNum = s.tNum := rfl
@[simp] theorem setWord1_tMilli (w : RawWord) : (setWord1 w s).tMilli = s.tMilli := rfl
@[simp] theorem setWord1_hNum (w : RawWord) : (setWord1 w s).hNum = s.hNum := rfl
@[simp] theorem setWord1_hMilli (w : RawWord) : (setWord1 w s).hMilli = s.hMilli := rfl
@[simp] theorem setWord1_err (w : RawWord) : (setWord1 w s).err = s.err := rfl
@[simp] theorem setWord1_incoming (w : RawWord) : (setWord1 w s).incoming = s.incoming := rfl
@[simp] theorem setWord1_returned (w : RawWord) : (setWord1 w s).returned = s.returned := rfl

/-! ### setCrcOut -/

@[simp] theorem setCrcOut_en (v : Byte) : (setCrcOut v s).en = s.en := rfl
@[simp] theorem setCrcOut_mode (v : Byte) : (setCrcOut v s).mode = s.mode := rfl
@[simp] theorem setCrcOut_rxcnt (v : Byte) : (setCrcOut v s).rxcnt = s.rxcnt := rfl
@[simp] theorem setCrcOut_ovf (v : Byte) : (setCrcOut v s).ovf = s.ovf := rfl
@[simp] theorem setCrcOut_buf (v : Byte) : (setCrcOut v s).buf = s.buf := rfl
@[simp] theorem setCrcOut_word0 (v : Byte) : (setCrcOut v s).word0 = s.word0 := rfl
@[simp] theorem setCrcOut_word1 (v : Byte) : (setCrcOut v s).word1 = s.word1 := rfl
@[simp] theorem setCrcOut_crcOut (v : Byte) : (setCrcOut v s).crcOut = v := rfl
@[simp] theorem setCrcOut_tNum (v : Byte) : (setCrcOut v s).tNum = s.tNum := rfl
@[simp] theorem setCrcOut_tMilli (v : Byte) : (setCrcOut v s).tMilli = s.tMilli := rfl
@[simp] theorem setCrcOut_hNum (v : Byte) : (setCrcOut v s).hNum = s.hNum := rfl
@[simp] theorem setCrcOut_hMilli (v : Byte) : (setCrcOut v s).hMilli = s.hMilli := rfl
@[simp] theorem setCrcOut_err (v : Byte) : (setCrcOut v s).err = s.err := rfl
@[simp] theorem setCrcOut_incoming (v : Byte) : (setCrcOut v s).incoming = s.incoming := rfl
@[simp] theorem setCrcOut_returned (v : Byte) : (setCrcOut v s).returned = s.returned := rfl

/-! ### setTemperature -/

@[simp] theorem setTemperature_en (r : RawWord) : (setTemperature r s).en = s.en := rfl
@[simp] theorem setTemperature_mode (r : RawWord) : (setTemperature r s).mode = s.mode := rfl
@[simp] theorem setTemperature_rxcnt (r : RawWord) : (setTemperature r s).rxcnt = s.rxcnt := rfl
@[simp] theorem setTemperature_ovf (r : RawWord) : (setTemperature r s).ovf = s.ovf := rfl
@[simp] theorem setTemperature_buf (r : RawWord) : (setTemperature r s).buf = s.buf := rfl
@[simp] theorem setTemperature_word0 (r : RawWord) : (setTemperature r s).word0 = s.word0 := rfl
@[simp] theorem setTemperature_word1 (r : RawWord) : (setTemperature r s).word1 = s.word1 := rfl
@[simp] theorem setTemperature_crcOut (r : RawWord) : (setTemperature r s).crcOut = s.crcOut := rfl
@[simp] theorem setTemperature_tNum (r : RawWord) : (setTemperature r s).tNum = sext32 (tnum r) := rfl
@[simp] theorem setTemperature_tMilli (r : RawWord) : (setTemperature r s).tMilli = sext32 (tmilli r) := rfl
@[simp] theorem setTemperature_hNum (r : RawWord) : (setTemperature r s).hNum = s.hNum := rfl
@[simp] theorem setTemperature_hMilli (r : RawWord) : (setTemperature r s).hMilli = s.hMilli := rfl
@[simp] theorem setTemperature_err (r : RawWord) : (setTemperature r s).err = s.err := rfl
@[simp] theorem setTemperature_incoming (r : RawWord) : (setTemperature r s).incoming = s.incoming := rfl
@[simp] theorem setTemperature_returned (r : RawWord) : (setTemperature r s).returned = s.returned := rfl

/-! ### setHumidity -/

@[simp] theorem setHumidity_en (r : RawWord) : (setHumidity r s).en = s.en := rfl
@[simp] theorem setHumidity_mode (r : RawWord) : (setHumidity r s).mode = s.mode := rfl
@[simp] theorem setHumidity_rxcnt (r : RawWord) : (setHumidity r s).rxcnt = s.rxcnt := rfl
@[simp] theorem setHumidity_ovf (r : RawWord) : (setHumidity r s).ovf = s.ovf := rfl
@[simp] theorem setHumidity_buf (r : RawWord) : (setHumidity r s).buf = s.buf := rfl
@[simp] theorem setHumidity_word0 (r : RawWord) : (setHumidity r s).word0 = s.word0 := rfl
@[simp] theorem setHumidity_word1 (r : RawWord) : (setHumidity r s).word1 = s.word1 := rfl
@[simp] theorem setHumidity_crcOut (r : RawWord) : (setHumidity r s).crcOut = s.crcOut := rfl
@[simp] theorem setHumidity_tNum (r : RawWord) : (setHumidity r s).tNum = s.tNum := rfl
@[simp] theorem setHumidity_tMilli (r : RawWord) : (setHumidity r s).tMilli = s.tMilli := rfl
@[simp] theorem setHumidity_hNum (r : RawWord) : (setHumidity r s).hNum = sext32 (hnum r) := rfl
@[simp] theorem setHumidity_hMilli (r : RawWord) : (setHumidity r s).hMilli = sext32 (hmilli r) := rfl
@[simp] theorem setHumidity_err (r : RawWord) : (setHumidity r s).err = s.err := rfl
@[simp] theorem setHumidity_incoming (r : RawWord) : (setHumidity r s).incoming = s.incoming := rfl
@[simp] theorem setHumidity_returned (r : RawWord) : (setHumidity r s).returned = s.returned := rfl

/-! ### pushByte: what it never writes -/

@[simp] theorem pushByte_en (b : Byte) : (pushByte b s).en = s.en := by
  unfold pushByte; split <;> rfl
@[simp] theorem pushByte_mode (b : Byte) : (pushByte b s).mode = s.mode := by
  unfold pushByte; split <;> rfl
@[simp] theorem pushByte_word0 (b : Byte) : (pushByte b s).word0 = s.word0 := by
  unfold pushByte; split <;> rfl
@[simp] theorem pushByte_word1 (b : Byte) : (pushByte b s).word1 = s.word1 := by
  unfold pushByte; split <;> rfl
@[simp] theorem pushByte_crcOut (b : Byte) : (pushByte b s).crcOut = s.crcOut := by
  unfold pushByte; split <;> rfl
@[simp] theorem pushByte_tNum (b : Byte) : (pushByte b s).tNum = s.tNum := by
  unfold pushByte; split <;> rfl
@[simp] theorem pushByte_tMilli (b : Byte) : (pushByte b s).tMilli = s.tMilli := by
  unfold pushByte; split <;> rfl
@[simp] theorem pushByte_hNum (b : Byte) : (pushByte b s).hNum = s.hNum := by
  unfold pushByte; split <;> rfl
@[simp] theorem pushByte_hMilli (b : Byte) : (pushByte b s).hMilli = s.hMilli := by
  unfold pushByte; split <;> rfl
@[simp] theorem pushByte_err (b : Byte) : (pushByte b s).err = s.err := by
  unfold pushByte; split <;> rfl
@[simp] theorem pushByte_incoming (b : Byte) : (pushByte b s).incoming = s.incoming := by
  unfold pushByte; split <;> rfl
@[simp] theorem pushByte_returned (b : Byte) : (pushByte b s).returned = s.returned := by
  unfold pushByte; split <;> rfl

end Sys2Proof.Machine
end

