-- ==== Sys2Proof/Laws/Ops.lean ====
section
/-! SUPPORT. What each shared operation can do, said once: the checks, the session gate, the consuming commands, PUSH. -/

namespace Sys2Proof.Machine

variable (s : State)

/-! ### The group checks -/

/-- A list of groups has no bad group exactly when every group's checksum matches (R124). -/
theorem firstBadGroup_eq_none_iff (buf : ReplyBuffer) (gs : List (Fin 2)) :
    firstBadGroup buf gs = none ↔ ∀ g ∈ gs, groupCalc buf g = groupRecv buf g := by
  induction gs with
  | nil => simp [firstBadGroup]
  | cons g gs ih =>
    unfold firstBadGroup
    by_cases hg : groupCalc buf g = groupRecv buf g
    · simp [hg, ih]
    · simp [hg]

/-- The error a list of groups raises is an IntegrityError of one of them (R124). -/
theorem firstBadGroup_eq_some {buf : ReplyBuffer} {gs : List (Fin 2)} {e : CommandError}
    (h : firstBadGroup buf gs = some e) :
    ∃ g ∈ gs, e = .integrity g (groupRecv buf g) (groupCalc buf g) ∧ groupCalc buf g ≠ groupRecv buf g := by
  induction gs with
  | nil => simp [firstBadGroup] at h
  | cons g gs ih =>
    unfold firstBadGroup at h
    split at h
    · next hg => exact ⟨g, by simp, by simpa using h.symm, hg⟩
    · obtain ⟨g', hm, he⟩ := ih h
      exact ⟨g', by simp [hm], he⟩

theorem firstBadGroup_one (buf : ReplyBuffer) :
    firstBadGroup buf (groups 1) =
      if groupCalc buf 0 ≠ groupRecv buf 0 then some (.integrity 0 (groupRecv buf 0) (groupCalc buf 0)) else none :=
  rfl

theorem firstBadGroup_two (buf : ReplyBuffer) :
    firstBadGroup buf (groups 2) =
      if groupCalc buf 0 ≠ groupRecv buf 0 then some (.integrity 0 (groupRecv buf 0) (groupCalc buf 0))
      else if groupCalc buf 1 ≠ groupRecv buf 1 then some (.integrity 1 (groupRecv buf 1) (groupCalc buf 1)) else none :=
  rfl

/-! ### The frame check -/

/-- A frame passes exactly when its length is exact, nothing overflowed and every group matches (R122, R124). -/
theorem frameError_eq_none_iff (need n : Nat) :
    frameError need n s = none ↔
      s.ovf = false ∧ s.rxcnt.toNat = need ∧ ∀ g ∈ groups n, groupCalc s.buf g = groupRecv s.buf g := by
  unfold frameError
  split
  · next h => simp only [reduceCtorEq, false_iff, not_and]; rintro ho hc; simp [ho, hc] at h
  · next h => rw [firstBadGroup_eq_none_iff]; simp at h; simp [h]

theorem frameError_of_overflow {s : State} (need n : Nat) (h : s.ovf = true) :
    frameError need n s = some .length := by
  simp [frameError, h]

theorem frameError_of_length {s : State} {need : Nat} (n : Nat) (h : s.rxcnt.toNat ≠ need) :
    frameError need n s = some .length := by
  simp [frameError, h]

theorem frameError_of_exact {s : State} {need : Nat} (n : Nat) (ho : s.ovf = false) (hc : s.rxcnt.toNat = need) :
    frameError need n s = firstBadGroup s.buf (groups n) := by
  simp [frameError, ho, hc]

/-- What error a frame can raise: LENGTH, or INTEGRITY of one of its groups (R222). -/
theorem frameError_eq_some {s : State} {need n : Nat} {e : CommandError} (h : frameError need n s = some e) :
    e = .length ∨ ∃ g, e = .integrity g (groupRecv s.buf g) (groupCalc s.buf g) := by
  unfold frameError at h
  split at h
  · exact .inl (by simpa using h.symm)
  · obtain ⟨g, -, he, -⟩ := firstBadGroup_eq_some h
    exact .inr ⟨g, he⟩

/-! ### The shapes of a command -/

theorem needSession_of_eq {s : State} {want : Bool} (body : State → State) (h : s.en = want) :
    needSession want body s = body s := by
  simp [needSession, h]

theorem needSession_of_ne {s : State} {want : Bool} (body : State → State) (h : s.en ≠ want) :
    needSession want body s = raise .state s := by
  simp [needSession, h]

/-- The session gate either runs the body or raises StateError and nothing else (R203, R222). -/
theorem needSession_cases (want : Bool) (body : State → State) :
    (s.en = want ∧ needSession want body s = body s) ∨ (s.en ≠ want ∧ needSession want body s = raise .state s) := by
  by_cases h : s.en = want
  · exact .inl ⟨h, needSession_of_eq body h⟩
  · exact .inr ⟨h, needSession_of_ne body h⟩

theorem consuming_of_none {s : State} {need n : Nat} (commit : State → State) (h : frameError need n s = none) :
    consuming need n commit s = succeed (commit (consume s)) := by
  simp [consuming, h]

theorem consuming_of_some {s : State} {need n : Nat} {e : CommandError} (commit : State → State)
    (h : frameError need n s = some e) : consuming need n commit s = raise e (consume s) := by
  simp [consuming, h]

/-- A consuming command commits and succeeds, or raises the frame's error after the consume (R123, R127). -/
theorem consuming_cases (need n : Nat) (commit : State → State) :
    (frameError need n s = none ∧ consuming need n commit s = succeed (commit (consume s))) ∨
    ∃ e, frameError need n s = some e ∧ consuming need n commit s = raise e (consume s) := by
  cases h : frameError need n s with
  | none => exact .inl ⟨rfl, consuming_of_none commit h⟩
  | some e => exact .inr ⟨e, rfl, consuming_of_some commit h⟩

/-! ### PUSH -/

theorem pushByte_of_lt {s : State} (b : Byte) (h : s.rxcnt.toNat < 6) :
    pushByte b s = { s with buf := s.buf.set s.rxcnt.toNat b h, rxcnt := s.rxcnt + 1#3 } := by
  simp [pushByte, h]

theorem pushByte_of_full {s : State} (b : Byte) (h : ¬ s.rxcnt.toNat < 6) :
    pushByte b s = { s with ovf := true } := by
  simp [pushByte, h]

theorem pushByte_rxcnt_of_lt {s : State} (b : Byte) (h : s.rxcnt.toNat < 6) :
    (pushByte b s).rxcnt.toNat = s.rxcnt.toNat + 1 := by
  rw [pushByte_of_lt b h, BitVec.toNat_add]
  simp; omega

end Sys2Proof.Machine
end

