-- ==== Sys2Proof/Laws/Step.lean ====
section
/-! SUPPORT. What a step can do, said once: the access it performs, and the instruction a write runs. -/

namespace Sys2Proof.Machine

variable (s : State)

/-! ### The register at an instruction port -/

@[simp] theorem regAt_portOffset (p : InstrPort) :
    (regAt (portOffset p)).bind PortReg.instrPort = some p := by
  cases p <;> rfl

/-! ### Accesses -/

/-- Exactly the accesses of one whole word at a multiple of 4 below 0x080 are carried (R61, R62). -/
theorem Access.refusal_eq_none_iff (a : Access) :
    a.refusal = none ↔ a.width = .word ∧ a.offset % 4 = 0 ∧ a.offset < 0x80 := by
  obtain ⟨d, off, w⟩ := a
  by_cases h4 : off % 4 = 0 <;> by_cases h8 : off < 128 <;> cases w <;>
    simp [Access.refusal, Config.portBytes, h4, h8, Nat.not_le.mpr, Nat.not_lt.mp]

theorem performAccess_of_refusal {a : Access} {r : Refusal} (h : a.refusal = some r) :
    performAccess a s = .refused r := by
  simp [performAccess, h]

theorem performAccess_read {off : Nat} (h : off % 4 = 0 ∧ off < 0x80) :
    performAccess { dir := .read, offset := off, width := .word } s =
      .next { s with returned := some (portRead s off) } := by
  have := (Access.refusal_eq_none_iff { dir := .read, offset := off, width := .word }).2 ⟨rfl, h⟩
  simp [performAccess, this]

theorem performAccess_write {off : Nat} (w : Word) (h : off % 4 = 0 ∧ off < 0x80) :
    performAccess { dir := .write w, offset := off, width := .word } s = portWrite off w { s with returned := none } := by
  have := (Access.refusal_eq_none_iff { dir := .write w, offset := off, width := .word }).2 ⟨rfl, h⟩
  simp [performAccess, this]

/-- A write of an instruction port runs what its word decodes to (R81). -/
theorem portWrite_portOffset (p : InstrPort) (w : Word) : portWrite (portOffset p) w s = writeInstr p w s := by
  simp [portWrite]

/-- A write acts on an instruction port or is ignored (R65). -/
theorem portWrite_cases (off : Nat) (w : Word) :
    (∃ p, (regAt off).bind PortReg.instrPort = some p ∧ portWrite off w s = writeInstr p w s) ∨
    ((regAt off).bind PortReg.instrPort = none ∧ portWrite off w s = .next s) := by
  cases h : (regAt off).bind PortReg.instrPort with
  | none => exact .inr ⟨rfl, by simp [portWrite, h]⟩
  | some p => exact .inl ⟨p, rfl, by simp [portWrite, h]⟩

/-- A word written to an instruction port runs an instruction or raises IllegalCommand (R81). -/
theorem writeInstr_cases (p : InstrPort) (w : Word) :
    (∃ i, decode p w = .instr i ∧ writeInstr p w s = exec i s) ∨
    (∃ r, decode p w = .illegal r ∧ writeInstr p w s = .next (raise .illegal s)) := by
  cases h : decode p w with
  | instr i => exact .inl ⟨i, rfl, by simp [writeInstr, h]⟩
  | illegal r => exact .inr ⟨r, rfl, by simp [writeInstr, h]⟩

/-! ### Steps -/

theorem step_of_nil {s : State} (h : s.incoming = []) : step s = .next s := by
  simp [step, h]

theorem step_of_cons {s : State} {e : HostEvent} {rest : List HostEvent} (h : s.incoming = e :: rest) :
    step s = perform e { s with incoming := rest } := by
  simp [step, h]

/-- Everything a step that answers a next state can have done: nothing was presented; reset; a read; a write that is
ignored; an instruction; or an illegal command word. -/
theorem step_cases {s t : State} (h : step s = .next t) :
    (s.incoming = [] ∧ t = s) ∨
    ∃ e rest, s.incoming = e :: rest ∧
      ((e = .reset ∧ t = { State.reset with incoming := rest }) ∨
       ∃ off, off % 4 = 0 ∧ off < 0x80 ∧
        ((e = wordRead off ∧ t = { s with incoming := rest, returned := some (portRead s off) }) ∨
         ∃ w, e = wordWrite off w ∧
          (((regAt off).bind PortReg.instrPort = none ∧ t = { s with incoming := rest, returned := none }) ∨
           ∃ p, (regAt off).bind PortReg.instrPort = some p ∧
            ((∃ i, decode p w = .instr i ∧ exec i { s with incoming := rest, returned := none } = .next t) ∨
             (∃ r, decode p w = .illegal r ∧
               t = raise .illegal { s with incoming := rest, returned := none }))))) := by
  cases hs : s.incoming with
  | nil => rw [step_of_nil hs] at h; exact .inl ⟨rfl, by cases h; rfl⟩
  | cons e rest =>
    refine .inr ⟨e, rest, rfl, ?_⟩
    rw [step_of_cons hs] at h
    cases e with
    | reset => exact .inl ⟨rfl, by cases h; rfl⟩
    | accessInReset a => cases h
    | access a =>
      change performAccess a _ = _ at h
      cases hr : a.refusal with
      | some r => rw [performAccess_of_refusal _ hr] at h; cases h
      | none =>
        obtain ⟨hw, ha⟩ := (Access.refusal_eq_none_iff a).1 hr
        obtain ⟨dir, off, width⟩ := a
        obtain rfl : width = .word := hw
        refine .inr ⟨off, ha.1, ha.2, ?_⟩
        cases dir with
        | read =>
          rw [performAccess_read _ ha] at h
          exact .inl ⟨rfl, by cases h; rfl⟩
        | write w =>
          rw [performAccess_write _ w ha] at h
          refine .inr ⟨w, rfl, ?_⟩
          obtain ⟨p, hr, hp⟩ | ⟨hr, hp⟩ := portWrite_cases { s with incoming := rest, returned := none } off w
          · rw [hp] at h
            refine .inr ⟨p, hr, ?_⟩
            obtain ⟨i, hd, hi⟩ | ⟨r, hd, hi⟩ := writeInstr_cases { s with incoming := rest, returned := none } p w
            · exact .inl ⟨i, hd, hi ▸ h⟩
            · rw [hi] at h
              exact .inr ⟨r, hd, by cases h; rfl⟩
          · rw [hp] at h
            exact .inl ⟨hr, by cases h; rfl⟩

end Sys2Proof.Machine
end

