-- ==== Sys2Proof/Laws/Exec.lean ====
section
/-! SUPPORT. What each instruction can do, said once per meaning: an equation for a meaning with one outcome, a case lemma
for a meaning that can end in an error. -/

namespace Sys2Proof.Machine

variable (s : State)

theorem exec_nop : exec .nop s = .next (succeed s) := rfl

theorem exec_crc8 (hi lo : Byte) : exec (.crc8 hi lo) s = .next (succeed (setCrcOut (crc8 hi lo) s)) := rfl

theorem exec_convT (r : RawWord) : exec (.convT r) s = .next (succeed (setTemperature r s)) := rfl

theorem exec_convH (r : RawWord) : exec (.convH r) s = .next (succeed (setHumidity r s)) := rfl

theorem exec_flush : exec .flush s = .next (succeed (consume s)) := rfl

theorem exec_closeSession : exec .closeSession s = .next (succeed (setEn false (consume s))) := rfl

theorem exec_push (b : Byte) : exec (.push b) s = .next (pushByte b s) := rfl

theorem exec_validate_cases (n : BitVec 2) :
    (groupCountOk n = true ∧ exec (.validate n) s = .next (consuming (3 * n.toNat) n.toNat (commitWords n) s)) ∨
    (groupCountOk n = false ∧ exec (.validate n) s = .next (raise .illegal s)) := by
  cases h : groupCountOk n
  · exact .inr ⟨rfl, by simp [exec, execValidate, h]⟩
  · exact .inl ⟨rfl, by simp [exec, execValidate, h]⟩

theorem exec_readStatus_cases :
    (s.en = true ∧
      exec .readStatus s = .next (consuming 3 1 (fun s => setWord0 (rawWord s.buf 0) s) s)) ∨
    (s.en = false ∧ exec .readStatus s = .next (raise .state s)) := by
  cases h : s.en
  · exact .inr ⟨rfl, by simp [exec, execReadStatus, needSession, h]⟩
  · exact .inl ⟨rfl, by simp [exec, execReadStatus, needSession, h, descStatus]⟩

/-- Every combined-read descriptor has reply length 6 (R100). -/
@[simp] theorem desc_replyLength (m : Mode) : (desc m).replyLength = 6 := by
  cases m <;> rfl

theorem exec_readTH_cases :
    (s.en = true ∧ exec .readTH s = .next (consuming 6 2 commitReading s)) ∨
    (s.en = false ∧ exec .readTH s = .next (raise .state s)) := by
  cases h : s.en
  · exact .inr ⟨rfl, by simp [exec, execReadTH, needSession, h]⟩
  · exact .inl ⟨rfl, by simp [exec, execReadTH, needSession, h]⟩

theorem exec_openSession_cases :
    (s.en = false ∧
      exec .openSession s =
        .next (consuming 3 1 (fun s => setEn true (setMode .high (setWord0 (rawWord s.buf 0) s))) s)) ∨
    (s.en = true ∧ exec .openSession s = .next (raise .state s)) := by
  cases h : s.en
  · exact .inl ⟨rfl, by simp [exec, execOpen, needSession, h, descStatus]⟩
  · exact .inr ⟨rfl, by simp [exec, execOpen, needSession, h]⟩

theorem exec_setMode_cases (m : BitVec 2) :
    (∃ mode, Mode.ofField m = some mode ∧ s.en = true ∧
      exec (.setMode m) s = .next (succeed (setMode mode s))) ∨
    ((Mode.ofField m).isSome ∧ s.en = false ∧ exec (.setMode m) s = .next (raise .state s)) ∨
    (Mode.ofField m = none ∧ exec (.setMode m) s = .next (raise .illegal s)) := by
  cases hm : Mode.ofField m with
  | none => exact .inr (.inr ⟨rfl, by simp [exec, execSetMode, hm]⟩)
  | some mode =>
    cases he : s.en
    · exact .inr (.inl ⟨rfl, rfl, by simp [exec, execSetMode, hm, needSession, he]⟩)
    · exact .inl ⟨mode, rfl, rfl, by simp [exec, execSetMode, hm, needSession, he]⟩


/-- Every instruction answers a next state: an error is a record in ERR (R225). -/
theorem exec_next (i : Instr) : ∃ t, exec i s = .next t := by
  cases i <;> exact ⟨_, rfl⟩

/-- A run of instructions and then one more. -/
theorem execAll_append (is : List Instr) (j : Instr) {s t : State} (h : execAll is s = .next t) :
    execAll (is ++ [j]) s = exec j t := by
  induction is generalizing s with
  | nil => cases h; show (match exec j t with | .next u => execAll [] u | .fault f => _ | .refused r => _) = _; cases exec j t <;> rfl
  | cons i is ih =>
    simp only [List.cons_append, execAll] at h ⊢
    cases hi : exec i s with
    | next u => rw [hi] at h; exact ih h
    | fault f => cases f
    | refused r => rw [hi] at h; cases h

end Sys2Proof.Machine
end

