-- ==== Sys2Proof/Laws/Operands.lean ====
section
/-! SUPPORT. The groups of the reply buffer by the index of BUF, and the two frames the block reads: one group of three
bytes, two groups of six. -/

namespace Sys2Proof.Machine

variable (buf : ReplyBuffer)

theorem rawWord_zero : rawWord buf 0 = buf[0] ++ buf[1] := rfl

theorem rawWord_one : rawWord buf 1 = buf[3] ++ buf[4] := rfl

theorem groupCalc_zero : groupCalc buf 0 = crc8 buf[0] buf[1] := rfl

theorem groupCalc_one : groupCalc buf 1 = crc8 buf[3] buf[4] := rfl

theorem groupRecv_zero : groupRecv buf 0 = buf[2] := rfl

theorem groupRecv_one : groupRecv buf 1 = buf[5] := rfl

/-- The frame of one group: LENGTH, else INTEGRITY of group 0, else none (R122, R124). -/
theorem frameError_one (s : State) :
    frameError 3 1 s =
      if s.ovf = true ∨ s.rxcnt.toNat ≠ 3 then some .length
      else if crc8 s.buf[0] s.buf[1] ≠ s.buf[2] then some (.integrity 0 s.buf[2] (crc8 s.buf[0] s.buf[1])) else none :=
  rfl

/-- The frame of two groups: LENGTH, else INTEGRITY of the first group that fails, else none (R122, R124). -/
theorem frameError_two (s : State) :
    frameError 6 2 s =
      if s.ovf = true ∨ s.rxcnt.toNat ≠ 6 then some .length
      else if crc8 s.buf[0] s.buf[1] ≠ s.buf[2] then some (.integrity 0 s.buf[2] (crc8 s.buf[0] s.buf[1]))
      else if crc8 s.buf[3] s.buf[4] ≠ s.buf[5] then some (.integrity 1 s.buf[5] (crc8 s.buf[3] s.buf[4])) else none :=
  rfl

@[simp] theorem descStatus_replyLength : descStatus.replyLength = 3 := rfl

end Sys2Proof.Machine
end

