-- ==== Sys2Proof/Laws/PerInstr.lean ====
section
/-! SUPPORT. Facts about every instruction as syntax, one lemma per constructor. -/

namespace Sys2Proof.Laws

namespace EncodingShape

/-- A command's word has RSV = 0 and an assigned opcode byte (R82, R84); a push word has only its low byte (R87, R89). -/
def Statement (i : Instr) : Prop :=
  match i.port with
  | .cmd => rsvField (encode i) = 0#8 ∧ ∃ o : Opcode, opField (encode i) = o.byte
  | .rxdata => encode i < 0x100#32

theorem nop : Statement .nop := ⟨rsvField_commandWord _ _, _, opField_commandWord _ _⟩

theorem crc8 (hi lo : Byte) : Statement (.crc8 hi lo) := ⟨rsvField_commandWord _ _, _, opField_commandWord _ _⟩

theorem convT (r : RawWord) : Statement (.convT r) := ⟨rsvField_commandWord _ _, _, opField_commandWord _ _⟩

theorem convH (r : RawWord) : Statement (.convH r) := ⟨rsvField_commandWord _ _, _, opField_commandWord _ _⟩

theorem validate (n : BitVec 2) : Statement (.validate n) := ⟨rsvField_commandWord _ _, _, opField_commandWord _ _⟩

theorem flush : Statement .flush := ⟨rsvField_commandWord _ _, _, opField_commandWord _ _⟩

theorem openSession : Statement .openSession := ⟨rsvField_commandWord _ _, _, opField_commandWord _ _⟩

theorem closeSession : Statement .closeSession := ⟨rsvField_commandWord _ _, _, opField_commandWord _ _⟩

theorem setMode (m : BitVec 2) : Statement (.setMode m) := ⟨rsvField_commandWord _ _, _, opField_commandWord _ _⟩

theorem readStatus : Statement .readStatus := ⟨rsvField_commandWord _ _, _, opField_commandWord _ _⟩

theorem readTH : Statement .readTH := ⟨rsvField_commandWord _ _, _, opField_commandWord _ _⟩

theorem push (b : Byte) : Statement (.push b) := by
  show b.setWidth 32 < 0x100#32
  bv_omega

end EncodingShape

end Sys2Proof.Laws
end

