-- ==== Sys2Proof/Tests/Slice0.lean ====
section
/-! SUPPORT. Tests, each expected value taken from the spec's vectors (95_test_vectors.md), and for every statement with
hypotheses a concrete state and operands that meet them together. -/

namespace Sys2Proof.Tests

open Sys2Proof Sys2Proof.Machine

set_option maxRecDepth 8192

/-! ### Helpers -/

/-- The reset state with a session open or not, in a mode, and some bytes pushed. -/
def start (en : Bool) (mode : Mode) (pushed : List Byte) : State :=
  pushed.foldl (fun s b => pushByte b s) { State.reset with en := en, mode := mode }

/-- The state with some events presented. -/
def presenting (events : List HostEvent) : State := { State.reset with incoming := events }

/-- An outcome is a next state that passes a check. -/
def nextIs (o : Host.Outcome State Fault Refusal) (p : State → Bool) : Bool :=
  match o with
  | .next t => p t
  | .fault _ | .refused _ => false

/-! ### Well-formedness: an ill-formed term for each check, and its word is ILLEGAL (§2.4) -/

theorem test_validate_zero_ill_formed : Instr.wellFormed (.validate 0#2) = false := by decide
theorem test_validate_three_ill_formed : Instr.wellFormed (.validate 3#2) = false := by decide
theorem test_setMode_three_ill_formed : Instr.wellFormed (.setMode 3#2) = false := by decide
theorem test_well_formed_ends : Instr.wellFormed (.validate 1#2) = true ∧ Instr.wellFormed (.validate 2#2) = true ∧
    Instr.wellFormed (.setMode 0#2) = true ∧ Instr.wellFormed (.setMode 2#2) = true := by decide

/-! ### Decoding: one word per constructor, written from the encodings of R82-R89 -/

theorem test_decode_nop : decode .cmd 0b00000000_0000000000000000_00000000#32 = .instr .nop := by decide
theorem test_decode_crc8 :
    decode .cmd 0b00000000_10111110_11101111_00000001#32 = .instr (.crc8 0xBE#8 0xEF#8) := by decide
theorem test_decode_convT :
    decode .cmd 0b00000000_0110011010100010_00000010#32 = .instr (.convT 0x66A2#16) := by decide
theorem test_decode_convH :
    decode .cmd 0b00000000_0110011010100010_00000011#32 = .instr (.convH 0x66A2#16) := by decide
theorem test_decode_validate :
    decode .cmd 0b00000000_00000000000000_10_00000100#32 = .instr (.validate 2#2) := by decide
theorem test_decode_flush : decode .cmd 0b00000000_0000000000000000_00000101#32 = .instr .flush := by decide
theorem test_decode_open : decode .cmd 0b00000000_0000000000000000_00010000#32 = .instr .openSession := by decide
theorem test_decode_close : decode .cmd 0b00000000_0000000000000000_00010001#32 = .instr .closeSession := by decide
theorem test_decode_setMode :
    decode .cmd 0b00000000_00000000000000_01_00010010#32 = .instr (.setMode 1#2) := by decide
theorem test_decode_readStatus : decode .cmd 0b00000000_0000000000000000_00010011#32 = .instr .readStatus := by decide
theorem test_decode_readTH : decode .cmd 0b00000000_0000000000000000_00010100#32 = .instr .readTH := by decide
theorem test_decode_push :
    decode .rxdata 0b000000000000000000000001_10000001#32 = .instr (.push 0x81#8) := by decide

/-- The illegal words of §2.4. -/
theorem test_decode_illegal :
    decode .cmd 0x00000100#32 = .illegal .nonzeroImmediate ∧ decode .cmd 0x01000000#32 = .illegal .reservedBits ∧
    decode .cmd 0xFFBEEF01#32 = .illegal .reservedBits ∧ decode .cmd 0x00000004#32 = .illegal .badGroupCount ∧
    decode .cmd 0x00000304#32 = .illegal .badGroupCount ∧ decode .cmd 0x00000312#32 = .illegal .badMode ∧
    decode .cmd 0x00000006#32 = .illegal .unassignedOpcode ∧ decode .cmd 0x000000FF#32 = .illegal .unassignedOpcode := by
  decide

/-! ### The opcode-table interface: every row's instruction, and its word run as the first step after reset -/

theorem test_table_words :
    decodeTableWord 32 0x00000000 = some .nop ∧ decodeTableWord 32 0x00BEEF01 = some (.crc8 0xBE#8 0xEF#8) ∧
    decodeTableWord 32 0x00FFFF02 = some (.convT 0xFFFF#16) ∧ decodeTableWord 32 0x00000003 = some (.convH 0#16) ∧
    decodeTableWord 32 0x00000104 = some (.validate 1#2) ∧ decodeTableWord 32 0x00000005 = some .flush ∧
    decodeTableWord 32 0x00000010 = some .openSession ∧ decodeTableWord 32 0x00000011 = some .closeSession ∧
    decodeTableWord 32 0x00000212 = some (.setMode 2#2) ∧ decodeTableWord 32 0x00000013 = some .readStatus ∧
    decodeTableWord 32 0x00000014 = some .readTH ∧ decodeTableWord 8 0x81 = some (.push 0x81#8) ∧
    decodeTableWord 32 0x00000304 = none := by decide

theorem test_fetch_command :
    nextIs (step (State.reset.withFetchWord 32 0x00BEEF01)) (fun t => t.crcOut == 0x92#8) = true := by decide
theorem test_fetch_push :
    nextIs (step (State.reset.withFetchWord 8 0x81)) (fun t => t.buf[0] == 0x81#8 && t.rxcnt == 1#3) = true := by decide

/-! ### One step each: the vectors of §1.4, §2.2, §2.3, §2.5 and §2.6 -/

theorem test_nop_clears_err :
    nextIs (exec .nop { State.reset with err := errIntegrity 1#2 0x18#8 0x10#8 }) (fun t => portRead t 0x008 == 0#32)
      = true := by decide
theorem test_crc8_beef : nextIs (exec (.crc8 0xBE#8 0xEF#8) State.reset) (fun t => t.crcOut == 0x92#8) = true := by decide
theorem test_crc8_order : nextIs (exec (.crc8 0xEF#8 0xBE#8) State.reset) (fun t => t.crcOut == 0xCE#8) = true := by decide
theorem test_convT_first : nextIs (exec (.convT 0#16) State.reset)
    (fun t => portRead t 0x020 == 0xFFD3002D#32 && portRead t 0x024 == 0xFFFF5038#32) = true := by decide
theorem test_convT_rounds : nextIs (exec (.convT 0x41D4#16) State.reset)
    (fun t => portRead t 0x020 == 25#32 && portRead t 0x024 == 0#32) = true := by decide
theorem test_convH_last : nextIs (exec (.convH 0xFFFF#16) State.reset)
    (fun t => portRead t 0x028 == 0x0063FF9C#32 && portRead t 0x02C == 0x000186A0#32) = true := by decide
theorem test_convH_half : nextIs (exec (.convH 0x8000#16) State.reset)
    (fun t => portRead t 0x028 == 0x00320000#32 && portRead t 0x02C == 0x0000C351#32) = true := by decide
theorem test_validate_bad_group :
    nextIs (exec (.validate 1#2) (start false .high [0xFF#8, 0xFF#8, 0xFF#8]))
      (fun t => portRead t 0x008 == 0x00ACFF01#32 && t.word0 == 0#16 && t.rxcnt == 0#3) = true := by decide
theorem test_validate_two :
    nextIs (exec (.validate 2#2) (start false .high [0x00#8, 0x00#8, 0x81#8, 0xFF#8, 0xFF#8, 0xAC#8]))
      (fun t => t.word0 == 0#16 && t.word1 == 0xFFFF#16 && t.err == errCode 0#4) = true := by decide
theorem test_flush_keeps_buf :
    nextIs (exec .flush (start false .high [1#8, 2#8, 3#8, 4#8, 5#8, 6#8, 7#8]))
      (fun t => t.rxcnt == 0#3 && !t.ovf && t.buf == #v[1#8, 2#8, 3#8, 4#8, 5#8, 6#8]) = true := by decide
theorem test_open_sets_high :
    nextIs (exec .openSession (start false .low [0x00#8, 0x00#8, 0x81#8]))
      (fun t => t.en && t.mode == .high && t.word0 == 0#16 && t.err == errCode 0#4) = true := by decide
theorem test_open_bad_probe :
    nextIs (exec .openSession (start false .high [0x80#8, 0x10#8, 0xE2#8]))
      (fun t => !t.en && portRead t 0x008 == 0x00E1E201#32 && t.rxcnt == 0#3) = true := by decide
theorem test_close_consumes :
    nextIs (exec .closeSession (start true .low [1#8, 2#8])) (fun t => !t.en && t.rxcnt == 0#3 && t.mode == .low) = true := by decide
theorem test_setMode_keeps_buffer :
    nextIs (exec (.setMode 2#2) (start true .high [1#8, 2#8, 3#8]))
      (fun t => t.mode == .low && t.rxcnt == 3#3 && portRead t 0x030 == 0x06042416#32) = true := by decide
theorem test_setMode_closed :
    nextIs (exec (.setMode 2#2) (start false .high [])) (fun t => t.mode == .high && t.err == errCode 2#4) = true := by decide
theorem test_readStatus_word :
    nextIs (exec .readStatus (start true .high [0x80#8, 0x10#8, 0xE1#8]))
      (fun t => t.word0 == 0x8010#16 && t.err == errCode 0#4) = true := by decide
theorem test_readStatus_length :
    nextIs (exec .readStatus (start true .high [0x80#8, 0x10#8, 0xE1#8, 0x00#8, 0x00#8, 0x81#8]))
      (fun t => t.word0 == 0#16 && portRead t 0x008 == 3#32) = true := by decide
theorem test_readTH_corrected :
    nextIs (exec .readTH (start true .high [0x00#8, 0x00#8, 0x81#8, 0x66#8, 0xA2#8, 0x10#8]))
      (fun t => t.word1 == 0x66A2#16 && t.tMilli == 0xFFFF5038#32 && t.hNum == 0x00281748#32 &&
        t.hMilli == 0x00009C9C#32 && t.err == errCode 0#4) = true := by decide
theorem test_readTH_as_printed :
    nextIs (exec .readTH (start true .high [0x00#8, 0x00#8, 0x81#8, 0x66#8, 0xA2#8, 0x18#8]))
      (fun t => portRead t 0x008 == 0x00101811#32 && t.word1 == 0#16 && t.hNum == 0#32) = true := by decide
theorem test_push_low_byte :
    nextIs (step { start false .high [1#8, 2#8] with incoming := [wordWrite 0x00C 0x00000181#32] })
      (fun t => t.buf[2] == 0x81#8 && t.rxcnt == 3#3) = true := by decide
theorem test_push_overflow :
    portRead (start false .high [0x00#8, 0x00#8, 0x81#8, 0xFF#8, 0xFF#8, 0xAC#8, 0x00#8]) 0x000 = 0x000000E0#32 := by decide

/-! ### Hypotheses met -/

/-- A group that passes, one that fails, a second group that fails, both groups good, and an overflowed buffer. -/
def goodGroup : List Byte := [0xBE#8, 0xEF#8, 0x92#8]
def badGroup : List Byte := [0x80#8, 0x10#8, 0xE2#8]
def goodReply : List Byte := [0x00#8, 0x00#8, 0x81#8, 0xFF#8, 0xFF#8, 0xAC#8]
def badFirst : List Byte := [0x00#8, 0x00#8, 0x80#8, 0xFF#8, 0xFF#8, 0xAC#8]
def badSecond : List Byte := [0x00#8, 0x00#8, 0x81#8, 0x66#8, 0xA2#8, 0x18#8]
def overflowed : List Byte := [0x00#8, 0x00#8, 0x81#8, 0xFF#8, 0xFF#8, 0xAC#8, 0x00#8]

theorem witness_ResetGivesEveryRegisterItsValue :
    ∃ (s : State) (rest : List HostEvent), s.incoming = .reset :: rest ∧ s.en = true :=
  ⟨{ start true .low goodReply with incoming := [.reset] }, [], by decide⟩

theorem witness_RegisterMapReads : ∃ k, k < 32 ∧ k ≠ 1 ∧ k ≠ 3 := ⟨31, by decide⟩

theorem witness_ReadReturnsWordAndChangesNothing :
    ∃ (s : State) (rest : List HostEvent) (off : Nat), off % 4 = 0 ∧ off < 0x80 ∧ s.incoming = wordRead off :: rest :=
  ⟨presenting [wordRead 0x7C], [], 0x7C, by decide⟩

theorem witness_IgnoredWritesAndZeroReads :
    (∃ (s : State) (rest : List HostEvent) (off : Nat) (w : Word), off % 4 = 0 ∧ off < 0x80 ∧ off ≠ 0x004 ∧ off ≠ 0x00C ∧
      s.incoming = wordWrite off w :: rest) ∧
    (∃ (s : State) (rest : List HostEvent), s.incoming = wordRead 0x07C :: rest) :=
  ⟨⟨presenting [wordWrite 0x008 0xFFFFFFFF#32], [], 0x008, 0xFFFFFFFF#32, by decide⟩,
    ⟨presenting [wordRead 0x07C], [], by decide⟩⟩

theorem witness_UncarriedAccessIsRefused :
    (∃ (s : State) (a : Access), s.incoming = [.access a] ∧ a.offset = 0x07E) ∧
    (∃ (s : State) (a : Access), s.incoming = [.access a] ∧ a.offset = 0x080) ∧
    (∃ (s : State) (a : Access), s.incoming = [.access a] ∧ a.offset % 4 = 0 ∧ a.offset < 0x80 ∧ a.width = .half) ∧
    (∃ (s : State) (a : Access), s.incoming = [.access a] ∧ a.offset = 0x07C ∧ a.width = .word) :=
  ⟨⟨presenting [.access ⟨.read, 0x07E, .word⟩], ⟨.read, 0x07E, .word⟩, by decide⟩,
    ⟨presenting [.access ⟨.read, 0x080, .word⟩], ⟨.read, 0x080, .word⟩, by decide⟩,
    ⟨presenting [.access ⟨.read, 0x000, .half⟩], ⟨.read, 0x000, .half⟩, by decide⟩,
    ⟨presenting [.access ⟨.read, 0x07C, .word⟩], ⟨.read, 0x07C, .word⟩, by decide⟩⟩

theorem witness_OnlyUncarriedEventsStopAStep :
    ∃ (s : State) (a : Access) (rest : List HostEvent), s.incoming = .accessInReset a :: rest ∧ a.Carried :=
  ⟨presenting [.accessInReset ⟨.read, 0x000, .word⟩], ⟨.read, 0x000, .word⟩, [], by unfold Access.Carried; decide⟩

theorem witness_CarriedInputRunsForever :
    State.CarriedInput (presenting [wordRead 0x7C, .reset, wordWrite 0x004 0x01000000#32]) := by
  intro e he
  simp only [presenting, List.mem_cons, List.not_mem_nil, or_false] at he
  obtain rfl | rfl | rfl := he <;> simp [HostEvent.Carried, Access.Carried, wordRead, wordWrite]

theorem witness_StepRunsDecodedInstruction :
    (∃ (s : State) (rest : List HostEvent) (w : Word), s.incoming = wordWrite 0x004 w :: rest ∧
      decode .cmd w = .instr .readTH) ∧
    (∃ (s : State) (rest : List HostEvent) (w : Word), s.incoming = wordWrite 0x00C w :: rest ∧
      decode .rxdata w = .instr (.push 0x81#8)) :=
  ⟨⟨presenting [wordWrite 0x004 0x14#32], [], 0x14#32, by decide⟩,
    ⟨presenting [wordWrite 0x00C 0x181#32], [], 0x181#32, by decide⟩⟩

theorem witness_EventsTakenInOrder :
    (∃ s : State, s.incoming = [wordWrite 0x004 0x10#32, .reset] ∧ nextIs (step s) (fun _ => true) = true) ∧
    nextIs (exec .readTH (start true .high goodReply)) (fun _ => true) = true :=
  ⟨⟨presenting [wordWrite 0x004 0x10#32, .reset], by decide⟩, by decide⟩

theorem witness_IllegalWordOnlyWritesErr :
    ∃ (s : State) (rest : List HostEvent) (c : Word), ¬ legalWord c ∧ s.incoming = wordWrite 0x004 c :: rest :=
  ⟨presenting [wordWrite 0x004 0x304#32], [], 0x304#32, by unfold legalWord; decide, by decide⟩

theorem witness_PushWordPushesLowByte :
    ∃ (s : State) (rest : List HostEvent) (d : Word), s.incoming = wordWrite 0x00C d :: rest :=
  ⟨presenting [wordWrite 0x00C 0xFFFFFF81#32], [], 0xFFFFFF81#32, by decide⟩

theorem witness_DecodeOfEncode : Instr.wellFormed (.validate 2#2) = true ∧ Instr.wellFormed (.setMode 2#2) = true := by decide

theorem witness_EncodeOfDecodedCommand : ∃ (c : Word) (i : Instr), decode .cmd c = .instr i := ⟨0x204#32, .validate 2#2, by decide⟩

theorem witness_OpcodeTableRowsAgree : ∃ (c : Word) (i : Instr), decode .cmd c = .instr i := ⟨0x212#32, .setMode 2#2, by decide⟩

theorem witness_CrcAlgebraicLaws : ∃ a b : Byte, a ≠ b ∧ crc8 a b = crc8 b a ∧ a ^^^ b = 0xEF#8 :=
  ⟨0x00#8, 0xEF#8, by decide⟩

theorem witness_CrcDetectsUpToThreeBitErrors :
    ∃ (d0 d1 c : Byte) (ks : List (Fin 24)), crc8 d0 d1 = c ∧ ks.Nodup ∧ ks ≠ [] ∧ ks.length ≤ 3 :=
  ⟨0x00#8, 0x00#8, 0x81#8, [0, 12, 23], by decide⟩

theorem witness_FrameCheckIsCrc8 :
    ∃ s : State, s.rxcnt = 3#3 ∧ s.ovf = false ∧ nextIs (exec (.validate 1#2) s) (fun t => t.err == errCode 0#4) = true ∧
      nextIs (exec (.crc8 s.buf[0] s.buf[1]) s) (fun u => u.crcOut == s.buf[2]) = true :=
  ⟨start false .high goodGroup, by decide⟩

theorem witness_ScalerEndpointsAndMonotone : ∃ a b : RawWord, a.toNat < b.toNat := ⟨0x0000#16, 0xFFFF#16, by decide⟩

theorem witness_ConversionIsNotClamped :
    (∃ r : RawWord, r.toNat ≤ 0x0750 ∧ tmilli r = -40001) ∧ (∃ r : RawWord, 0xF8AF ≤ r.toNat ∧ tmilli r = 125001) ∧
    nextIs (exec (.convT 0#16) State.reset) (fun t => t.tNum.toInt == -2949075) = true ∧
    nextIs (exec (.convH 0xFFFF#16) State.reset) (fun t => t.hNum.toInt == 6553500) = true :=
  ⟨⟨0x0750#16, by decide⟩, ⟨0xF8AF#16, by decide⟩, by decide, by decide⟩

theorem witness_Crc8Result :
    (∃ c : Word, c.extractLsb' 0 8 = 0x01#8 ∧ c.extractLsb' 24 8 ≠ 0#8) ∧
    nextIs (exec (.crc8 0#8 0#8) State.reset) (fun t => t.crcOut != State.reset.crcOut) = true :=
  ⟨⟨0xFFBEEF01#32, by decide⟩, by decide⟩

theorem witness_ConvTResult :
    (∃ c : Word, c.extractLsb' 0 8 = 0x02#8 ∧ c.extractLsb' 24 8 = 0#8) ∧
    nextIs (exec (.convT 0xFFFF#16) State.reset) (fun t => t.tMilli == 130000#32) = true :=
  ⟨⟨0x00FFFF02#32, by decide⟩, by decide⟩

theorem witness_ConvHResult :
    (∃ c : Word, c.extractLsb' 0 8 = 0x03#8 ∧ c.extractLsb' 24 8 = 0#8) ∧
    nextIs (exec (.convH 1#16) State.reset) (fun t => t.hMilli == 2#32) = true :=
  ⟨⟨0x00FFFF03#32, by decide⟩, by decide⟩

theorem witness_PushResult :
    (∃ s : State, s.rxcnt.toNat < 6 ∧ s.rxcnt.toNat = 5) ∧ (∃ s : State, 6 ≤ s.rxcnt.toNat ∧ s.ovf = false) :=
  ⟨⟨start false .high [1#8, 2#8, 3#8, 4#8, 5#8], by decide⟩, ⟨start false .high goodReply, by decide⟩⟩

theorem witness_PushesFillBuffer : ∃ s : State, s.rxcnt = 0#3 ∧ s.ovf = false := ⟨State.reset, by decide⟩

theorem witness_FlushResult : ∃ c : Word, c.extractLsb' 0 8 = 0x05#8 ∧ c ≠ 0x00000005#32 := ⟨0x00000105#32, by decide⟩

theorem witness_ValidateResult :
    (∃ s : State, s.ovf = false ∧ s.rxcnt.toNat = 3 ∧ crc8 s.buf[0] s.buf[1] = s.buf[2]) ∧
    (∃ s : State, s.ovf = false ∧ s.rxcnt.toNat = 6 ∧ crc8 s.buf[0] s.buf[1] = s.buf[2] ∧
      crc8 s.buf[3] s.buf[4] = s.buf[5]) ∧
    (∃ s : State, s.ovf = true ∧ s.rxcnt.toNat = 3 * (2#2).toNat) ∧
    (∃ s : State, s.ovf = false ∧ s.rxcnt.toNat ≠ 3 * (1#2).toNat) ∧
    (∃ s : State, s.ovf = false ∧ s.rxcnt.toNat = 3 * (1#2).toNat ∧ crc8 s.buf[0] s.buf[1] ≠ s.buf[2]) ∧
    (∃ s : State, s.ovf = false ∧ s.rxcnt.toNat = 3 * (2#2).toNat ∧ crc8 s.buf[0] s.buf[1] ≠ s.buf[2]) ∧
    (∃ s : State, s.ovf = false ∧ s.rxcnt.toNat = 6 ∧ crc8 s.buf[0] s.buf[1] = s.buf[2] ∧
      crc8 s.buf[3] s.buf[4] ≠ s.buf[5]) ∧
    (∃ c : Word, c.extractLsb' 0 8 = 0x04#8 ∧ c = 0x00000204#32) :=
  ⟨⟨start false .high goodGroup, by decide⟩, ⟨start false .high goodReply, by decide⟩,
    ⟨start false .high overflowed, by decide⟩, ⟨start false .high goodReply, by decide⟩,
    ⟨start false .high badGroup, by decide⟩, ⟨start false .high badFirst, by decide⟩,
    ⟨start false .high badSecond, by decide⟩, ⟨0x00000204#32, by decide⟩⟩

theorem witness_ReadStatusResult :
    (∃ s : State, s.en = true ∧ s.ovf = false ∧ s.rxcnt.toNat = 3 ∧ crc8 s.buf[0] s.buf[1] = s.buf[2]) ∧
    (∃ s : State, s.en = false) ∧
    (∃ s : State, s.en = true ∧ (s.ovf = true ∨ s.rxcnt.toNat ≠ 3)) ∧
    (∃ s : State, s.en = true ∧ s.ovf = false ∧ s.rxcnt.toNat = 3 ∧ crc8 s.buf[0] s.buf[1] ≠ s.buf[2]) ∧
    (∃ c : Word, c.extractLsb' 0 8 = 0x13#8 ∧ c ≠ 0x00000013#32) :=
  ⟨⟨start true .high goodGroup, by decide⟩, ⟨State.reset, by decide⟩, ⟨start true .high goodReply, by decide⟩,
    ⟨start true .high badGroup, by decide⟩, ⟨0x00000113#32, by decide⟩⟩

theorem witness_ReadTHResult :
    (∃ s : State, s.en = true ∧ s.ovf = false ∧ s.rxcnt.toNat = 6 ∧ crc8 s.buf[0] s.buf[1] = s.buf[2] ∧
      crc8 s.buf[3] s.buf[4] = s.buf[5]) ∧
    (∃ s : State, s.en = false) ∧
    (∃ s : State, s.en = true ∧ s.ovf = true ∧ s.rxcnt.toNat = 6) ∧
    (∃ s : State, s.en = true ∧ s.ovf = false ∧ s.rxcnt.toNat ≠ 6) ∧
    (∃ s : State, s.en = true ∧ s.ovf = false ∧ s.rxcnt.toNat = 6 ∧ crc8 s.buf[0] s.buf[1] ≠ s.buf[2]) ∧
    (∃ s : State, s.en = true ∧ s.ovf = false ∧ s.rxcnt.toNat = 6 ∧ crc8 s.buf[0] s.buf[1] = s.buf[2] ∧
      crc8 s.buf[3] s.buf[4] ≠ s.buf[5]) ∧
    (∃ c : Word, c.extractLsb' 0 8 = 0x14#8 ∧ c ≠ 0x00000014#32) :=
  ⟨⟨start true .high goodReply, by decide⟩, ⟨State.reset, by decide⟩, ⟨start true .high overflowed, by decide⟩,
    ⟨start true .high goodGroup, by decide⟩, ⟨start true .high badFirst, by decide⟩,
    ⟨start true .high badSecond, by decide⟩, ⟨0x01000014#32, by decide⟩⟩

theorem witness_OpenResult :
    (∃ s : State, s.en = false ∧ s.ovf = false ∧ s.rxcnt.toNat = 3 ∧ crc8 s.buf[0] s.buf[1] = s.buf[2]) ∧
    (∃ s : State, s.en = true) ∧
    (∃ s : State, s.en = false ∧ (s.ovf = true ∨ s.rxcnt.toNat ≠ 3)) ∧
    (∃ s : State, s.en = false ∧ s.ovf = false ∧ s.rxcnt.toNat = 3 ∧ crc8 s.buf[0] s.buf[1] ≠ s.buf[2]) ∧
    (∃ c : Word, c.extractLsb' 0 8 = 0x10#8 ∧ c ≠ 0x00000010#32) :=
  ⟨⟨start false .low goodGroup, by decide⟩, ⟨start true .low [], by decide⟩, ⟨State.reset, by decide⟩,
    ⟨start false .high badGroup, by decide⟩, ⟨0x00000110#32, by decide⟩⟩

theorem witness_CloseResult :
    nextIs (exec .closeSession (start true .low goodGroup)) (fun t => !t.en) = true ∧
    (∃ c : Word, c.extractLsb' 0 8 = 0x11#8 ∧ c ≠ 0x00000011#32) := ⟨by decide, 0x00000111#32, by decide⟩

theorem witness_SetModeResult :
    (∃ s : State, s.en = true ∧ nextIs (exec (.setMode 2#2) s) (fun _ => true) = true) ∧
    (∃ (m : BitVec 2) (s : State), m ≠ 3#2 ∧ s.en = false) ∧
    (∃ c : Word, c.extractLsb' 0 8 = 0x12#8 ∧ c = 0x00000212#32) :=
  ⟨⟨start true .high [], by decide⟩, ⟨2#2, State.reset, by decide⟩, ⟨0x00000212#32, by decide⟩⟩

theorem witness_NopResult : ∃ c : Word, c.extractLsb' 0 8 = 0x00#8 ∧ c ≠ 0x00000000#32 := ⟨0x00000100#32, by decide⟩

theorem witness_SessionNeeds :
    (∃ s : State, s.en = true) ∧ (∃ s : State, s.en = false) ∧
    (∃ (i : Instr) (s : State), neededSession i = none ∧ i.port = .cmd ∧ nextIs (exec i s) (fun _ => true) = true) ∧
    (∃ (i : Instr) (s : State), neededSession i = some s.en ∧ i.port = .cmd ∧ nextIs (exec i s) (fun _ => true) = true) ∧
    nextIs (exec (.push 0#8) State.reset) (fun _ => true) = true :=
  ⟨⟨start true .high [], by decide⟩, ⟨State.reset, by decide⟩, ⟨.flush, State.reset, by decide⟩,
    ⟨.openSession, State.reset, by decide⟩, by decide⟩

theorem witness_FirstFailingCheckIsReported :
    (∃ (s : State) (c : Word), s.incoming = [wordWrite 0x004 c] ∧ decode .cmd c = .instr .readTH ∧
      nextIs (step s) (fun _ => true) = true) ∧
    (∃ (s : State) (c : Word), s.incoming = [wordWrite 0x004 c] ∧ decode .cmd c = .illegal .badMode ∧
      nextIs (step s) (fun _ => true) = true) :=
  ⟨⟨presenting [wordWrite 0x004 0x14#32], 0x14#32, by decide⟩, ⟨presenting [wordWrite 0x004 0x312#32], 0x312#32, by decide⟩⟩

theorem witness_ErrorsArePrecise : ∃ (i : Instr) (s : State), i.port = .cmd ∧
    nextIs (exec i s) (fun t => t.err == errIntegrity 1#2 0x18#8 0x10#8) = true :=
  ⟨.readTH, start true .high badSecond, by decide⟩

theorem witness_AllOrNothingCommit : ∃ (i : Instr) (s : State), i.port = .cmd ∧
    nextIs (exec i s) (fun t => t.err.code != 0#4) = true :=
  ⟨.readTH, start true .high badSecond, by decide⟩

theorem witness_EveryReplyIsUsedAtMostOnce :
    (∃ (i : Instr) (s : State), i.port = .cmd ∧ neededBytes i = some 6 ∧
      nextIs (exec i s) (fun t => t.err.code == 0#4) = true) ∧
    (∃ (i : Instr) (s : State), i.port = .cmd ∧ neededBytes i = none ∧ i ≠ .flush ∧ i ≠ .closeSession ∧
      nextIs (exec i s) (fun _ => true) = true) ∧
    (∃ (i : Instr) (s : State), i.port = .cmd ∧ nextIs (exec i s) (fun t => t.err.code == 2#4) = true) ∧
    (∃ (i : Instr) (s : State), i.port = .cmd ∧ nextIs (exec i s) (fun t => t.err.code == 4#4) = true) :=
  ⟨⟨.readTH, start true .high goodReply, by decide⟩, ⟨.nop, start false .high goodGroup, by decide⟩,
    ⟨.readTH, start false .high goodReply, by decide⟩, ⟨.validate 3#2, start false .high goodGroup, by decide⟩⟩

theorem witness_RegistersHaveOnlyTheirWriters :
    (∃ (i : Instr) (s : State) (r : StoredReg), r ∉ mayWrite i ∧ nextIs (exec i s) (fun t => t != s) = true) ∧
    (∃ (b : Byte) (s : State), StoredReg.err ∉ mayWrite (.push b) ∧
      nextIs (exec (.push b) s) (fun t => t != s && t.err.code == 2#4) = true) ∧
    (∃ (m : BitVec 2) (s : State), StoredReg.rxcnt ∉ mayWrite (.setMode m) ∧ StoredReg.ovf ∉ mayWrite (.setMode m) ∧
      nextIs (exec (.setMode m) s) (fun t => t != s && t.ovf && t.rxcnt == 6#3) = true) :=
  ⟨⟨.readTH, start true .high goodReply, .crcOut, by decide⟩,
    ⟨0x81#8, { State.reset with err := errCode 2#4 }, by decide⟩, ⟨2#2, start true .high overflowed, by decide⟩⟩

theorem witness_OnlyOpenAndCloseChangeEn :
    (∃ s : State, s.en = false ∧ nextIs (step s) (fun t => t.en) = true) ∧
    (∃ s : State, s.en = true ∧ nextIs (step s) (fun t => !t.en) = true) :=
  ⟨⟨{ start false .high goodGroup with incoming := [wordWrite 0x004 0x10#32] }, by decide⟩,
    ⟨{ start true .high goodGroup with incoming := [.reset] }, by decide⟩⟩

theorem witness_ErrNeverSteersACommand : Instr.port .readTH = .cmd ∧ Instr.port (.push 0#8) = .rxdata ∧
    nextIs (exec (.push 0#8) (start true .high goodReply)) (fun t => t.ovf) = true := by decide

theorem witness_StaleBytesAreNeverRead :
    ∃ (s : State) (buf : ReplyBuffer), (∀ k : Fin 6, k.val < s.rxcnt.toNat → buf[k] = s.buf[k]) ∧ buf ≠ s.buf ∧
      nextIs (exec (.validate 1#2) s) (fun t => t.err == errCode 0#4) = true :=
  ⟨start false .high goodGroup, #v[0xBE#8, 0xEF#8, 0x92#8, 1#8, 2#8, 3#8], by decide⟩

theorem witness_ModeOnlySelectsDescriptor :
    (∃ (i : Instr) (s : State), StoredReg.mode ∉ mayWrite i ∧ nextIs (exec i s) (fun _ => true) = true) ∧
    (∃ off : Nat, off / 4 ≠ 0 ∧ off / 4 ≠ 12) :=
  ⟨⟨.readTH, start true .high goodReply, by decide⟩, ⟨0x034, by decide⟩⟩

theorem witness_ValidReplyIsReadAndConverted : ∃ s : State, s.en = true ∧ s.rxcnt = 0#3 ∧ s.ovf = false :=
  ⟨start true .medium [], by decide⟩

theorem witness_BootOpensOnValidProbe :
    ∃ (s : State) (rest : List HostEvent) (b0 b1 b2 : Byte), s.en = false ∧ s.rxcnt = 0#3 ∧ s.ovf = false ∧
      s.incoming = (bootSequence b0 b1 b2).map AsmLine.event ++ rest ∧ crc8 b0 b1 = b2 :=
  ⟨presenting ((bootSequence 0x80#8 0x10#8 0xE1#8).map AsmLine.event), [], 0x80#8, 0x10#8, 0xE1#8, by decide⟩

theorem witness_BootOpensOnValidProbe_bad :
    ∃ (s : State) (rest : List HostEvent) (b0 b1 b2 : Byte), s.en = false ∧ s.rxcnt = 0#3 ∧ s.ovf = false ∧
      s.incoming = (bootSequence b0 b1 b2).map AsmLine.event ++ rest ∧ crc8 b0 b1 ≠ b2 :=
  ⟨presenting ((bootSequence 0x80#8 0x10#8 0xE2#8).map AsmLine.event), [], 0x80#8, 0x10#8, 0xE2#8, by decide⟩

theorem witness_EveryStoredBitIsReadable : ∃ s t : State, s ≠ t ∧ ∀ k < 32, portRead s (4 * k) = portRead t (4 * k) :=
  ⟨State.reset, presenting [.reset], by decide⟩

theorem witness_EveryStepKeepsLegal :
    (start true .high goodReply).Legal ∧
    nextIs (step { start true .high goodReply with incoming := [wordWrite 0x004 0x14#32] })
      (fun t => t.hMilli == 100000#32) = true :=
  ⟨⟨by decide, by decide, by decide, by decide, by decide, by decide, by decide, by decide⟩, by decide⟩

theorem witness_ReachableStatesAreLegal :
    (match Host.Core.run Sys2Proof.core 2 (presenting [wordWrite 0x00C 0x81#32, wordWrite 0x004 0x5#32]) with
      | .next t => t.rxcnt
      | .fault _ | .refused _ => 7#3) = 0#3 := by decide

theorem witness_EveryStepKeepsScaled :
    (start true .high goodReply).Scaled ∧
    nextIs (step { start true .high goodReply with incoming := [wordWrite 0x004 0x14#32] })
      (fun t => t.tMilli == 0xFFFF5038#32) = true :=
  ⟨⟨by decide, by decide, by decide, by decide⟩, by decide⟩

theorem witness_PlacementDoesNotMatter :
    nextIs (performAccess { dir := .read, offset := 0x07C, width := .word } State.reset) (fun _ => true) = true ∧
    (match performAccess { dir := .read, offset := 0x080, width := .word } State.reset with
      | .refused r => r == .outOfRangeAccess
      | .next _ | .fault _ => false) = true ∧
    (∃ (p : Placed) (addr : Nat), addr < p.base) :=
  ⟨by decide, by decide, ⟨0x1000, State.reset⟩, 0x0FFF, by decide⟩

theorem witness_BlocksAreIndependent :
    (match platformAccess (.write 0x00BEEF01#32) .word 0x1084 [⟨0x1000, State.reset⟩, ⟨0x1080, State.reset⟩] with
      | .next qs => qs.map fun q => q.block.crcOut
      | .fault _ | .refused _ => []) = [0x00#8, 0x92#8] := by decide

end Sys2Proof.Tests
end

section
/-! PROOFS. The host port (20_memory.md): what each word of the map reads as, which writes act, which accesses are carried. -/

namespace Sys2Proof.Machine

variable (s : State)

/-! ### The register map by name -/

/-- The map and the offsets of R63 agree: a register stands at its own offset. -/
@[simp] theorem regAt_offset (r : PortReg) : regAt r.offset = some r := by
  cases r with
  | buf i => revert i; decide
  | _ => rfl

/-- The reserved words of the map (R63). -/
def reservedOffsets : List Nat := [0x01C, 0x038, 0x03C, 0x058, 0x05C, 0x074, 0x078, 0x07C]

theorem regAt_reserved : ∀ off ∈ reservedOffsets, regAt off = none := by decide

/-- CMD and RXDATA are the only words of the map whose writes act (R63, R65). -/
theorem regAt_bind_instrPort_eq_none {k : Nat} (hk : k < 32) (hcmd : k ≠ 1) (hrx : k ≠ 3) :
    (regAt (4 * k)).bind PortReg.instrPort = none := by
  revert k; decide

/-! ### Reads -/

/-- At the offset of a named register the port reads that register. -/
theorem portRead_offset (r : PortReg) : portRead s r.offset = readReg s r := by
  simp [portRead]

theorem portRead_of_reserved {off : Nat} (h : off ∈ reservedOffsets) : portRead s off = 0#32 := by
  simp [portRead, regAt_reserved off h]

/-- The words that read 0 in every state: CMD and RXDATA, which are write-only, and the reserved words (R64). -/
theorem portRead_eq_zero : ∀ off ∈ 0x004 :: 0x00C :: reservedOffsets, portRead s off = 0#32 :=
  List.forall_mem_cons.2 ⟨portRead_offset s .cmd,
    List.forall_mem_cons.2 ⟨portRead_offset s .rxdata, fun _ => portRead_of_reserved s⟩⟩

/-- The packing of STATUS (R35). -/
theorem portRead_status : portRead s 0x000 =
    0#24 ++ BitVec.ofBool s.ovf ++ s.rxcnt ++ 0#1 ++ s.mode.bits ++ BitVec.ofBool s.en :=
  portRead_offset s .status

/-- The packing of ERR (R34). -/
theorem portRead_err : portRead s 0x008 =
    0#8 ++ s.err.computed ++ s.err.received ++ 0#2 ++ s.err.group ++ s.err.code :=
  portRead_offset s .err

theorem portRead_buf (i : Fin 6) : portRead s (0x040 + 4 * i.val) = 0#24 ++ s.buf[i] :=
  (portRead_offset s (.buf i)).trans (byte_zext _)

/-! ### Writes -/

theorem portWrite_of_ignored {off : Nat} (w : Word) (h : (regAt off).bind PortReg.instrPort = none) :
    portWrite off w s = .next s := by
  simp [portWrite, h]

/-- A write away from CMD and RXDATA is ignored (R64, R65). -/
theorem portWrite_word_ignored {k : Nat} (w : Word) (hk : k < 32) (hcmd : k ≠ 1) (hrx : k ≠ 3) :
    portWrite (4 * k) w s = .next s :=
  portWrite_of_ignored s w (regAt_bind_instrPort_eq_none hk hcmd hrx)

/-- Every write answers a next state, whether it acts, raises IllegalCommand or is ignored (R225). -/
theorem portWrite_next (off : Nat) (w : Word) : ∃ t, portWrite off w s = .next t := by
  obtain ⟨p, -, hp⟩ | ⟨-, hp⟩ := portWrite_cases s off w
  · rw [hp]
    obtain ⟨i, -, hi⟩ | ⟨r, -, hr⟩ := writeInstr_cases s p w
    · rw [hi]; exact exec_next s i
    · exact ⟨_, hr⟩
  · exact ⟨_, hp⟩

/-! ### The access as a step -/

theorem performAccess_next {a : Access} (h : a.refusal = none) : ∃ t, performAccess a s = .next t := by
  obtain ⟨hw, hoff⟩ := (Access.refusal_eq_none_iff a).1 h
  obtain ⟨dir, off, width⟩ := a
  obtain rfl : width = .word := hw
  cases dir with
  | read => exact ⟨_, performAccess_read s hoff⟩
  | write w => rw [performAccess_write s w hoff]; exact portWrite_next _ off w

section
variable {s} {rest : List HostEvent} {off : Nat}

theorem step_access {a : Access} (h : s.incoming = .access a :: rest) :
    step s = performAccess a { s with incoming := rest } :=
  step_of_cons h

theorem step_wordRead (ha : off % 4 = 0 ∧ off < 0x80) (h : s.incoming = wordRead off :: rest) :
    step s = .next { s with incoming := rest, returned := some (portRead s off) } :=
  (step_access h).trans (performAccess_read _ ha)

theorem step_wordWrite {w : Word} (ha : off % 4 = 0 ∧ off < 0x80) (h : s.incoming = wordWrite off w :: rest) :
    step s = portWrite off w { s with incoming := rest, returned := none } :=
  (step_access h).trans (performAccess_write _ w ha)

end

end Sys2Proof.Machine

open Sys2Proof Sys2Proof.Machine

/-- Settles O7: an access is refused exactly when `Access.refusal` names a reason, and every carried access is a read or
a write that answers a next state. -/
theorem uncarriedAccessIsRefused : Obligations.UncarriedAccessIsRefused := by
  intro s a rest hs
  rw [step_access hs]
  constructor
  · intro hbad
    cases hr : a.refusal with
    | some r => exact ⟨r, performAccess_of_refusal _ hr⟩
    | none =>
      obtain ⟨hw, h4, h80⟩ := (Access.refusal_eq_none_iff a).1 hr
      obtain h | h | h := hbad
      · exact absurd h4 h
      · omega
      · exact absurd hw h
  · rintro ⟨h4, h80, hw⟩
    exact performAccess_next _ ((Access.refusal_eq_none_iff a).2 ⟨hw, h4, h80⟩)

/-- Settles O3: each named word reads its register and each reserved word reads 0; CMD and RXDATA are the two
instruction ports, and a write of any other word is ignored. -/
theorem registerMapReads : Obligations.RegisterMapReads := by
  intro s
  have zero := portRead_eq_zero s
  simp only [reservedOffsets, List.forall_mem_cons] at zero
  obtain ⟨h04, h0C, h1C, h38, h3C, h58, h5C, h74, h78, h7C, -⟩ := zero
  exact ⟨portRead_status s, h04, portRead_err s, h0C,
    (portRead_offset s .word0).trans (rawWord_zext _), (portRead_offset s .word1).trans (rawWord_zext _),
    (portRead_offset s .crcOut).trans (byte_zext _), h1C,
    portRead_offset s .tNum, portRead_offset s .tMilli, portRead_offset s .hNum, portRead_offset s .hMilli,
    portRead_offset s .descTH, portRead_offset s .descStatus, h38, h3C, portRead_buf s, h58, h5C,
    portRead_offset s .calTOffset, portRead_offset s .calTGain, portRead_offset s .calTScale,
    portRead_offset s .calHGain, portRead_offset s .calHScale, h74, h78, h7C,
    fun w => ⟨portWrite_portOffset s .cmd w, portWrite_portOffset s .rxdata w⟩,
    fun w _ => portWrite_word_ignored s w⟩

/-- Settles O6: a write away from the two instruction ports is ignored, and CMD, RXDATA and the reserved words read 0. -/
theorem ignoredWritesAndZeroReads : Obligations.IgnoredWritesAndZeroReads := by
  constructor
  · intro s rest off w h4 h80 hcmd hrx hs
    obtain ⟨k, rfl⟩ : ∃ k, off = 4 * k := ⟨off / 4, by omega⟩
    rw [step_wordWrite ⟨h4, h80⟩ hs]
    exact portWrite_word_ignored _ w (by omega) (by omega) (by omega)
  · intro s rest off hoff hs
    have carried : ∀ off ∈ 0x004 :: 0x00C :: reservedOffsets, off % 4 = 0 ∧ off < 0x80 := by decide
    rw [step_wordRead (carried off hoff) hs, portRead_eq_zero s off hoff]

end

section
/-! PROOFS. The encoding (30_encoding.md): which command words the decoder accepts, and what a write of an illegal word
and of a push word does. -/

namespace Sys2Proof

/-! ### The operand fields -/

/-- What each operand form requires of the IMM16 field of a word (R83). -/
def OperandForm.Admits (c : Word) : OperandForm → Prop
  | .z => immField c = 0#16
  | .b | .w => True
  | .n => immUnused c = 0#14 ∧ groupCountOk (immPair c) = true
  | .m => immUnused c = 0#14 ∧ modeFieldOk (immPair c) = true

theorem groupCountOk_iff_mem : ∀ n : BitVec 2, groupCountOk n = true ↔ n ∈ [1#2, 2#2] := by decide

theorem modeFieldOk_iff_mem : ∀ m : BitVec 2, modeFieldOk m = true ↔ m ∈ [0#2, 1#2, 2#2] := by decide

/-! ### The words the decoder accepts -/

theorem decodeZ_accepts_iff (i : Instr) (c : Word) : (∃ j, decodeZ i c = .instr j) ↔ immField c = 0#16 := by
  by_cases h : immField c = 0#16 <;> simp [decodeZ, h]

/-- An assigned opcode is accepted with exactly the operands its form admits (R83). -/
theorem decodeOperand_accepts_iff (o : Opcode) (c : Word) :
    (∃ i, decodeOperand o c = .instr i) ↔ o.form.Admits c := by
  cases o with
  | nop | flush | openSession | closeSession | readStatus | readTH => exact decodeZ_accepts_iff _ c
  | crc8 | convT | convH => exact ⟨fun _ => trivial, fun _ => ⟨_, rfl⟩⟩
  | validate =>
    by_cases hu : immUnused c = 0#14 <;> by_cases hn : groupCountOk (immPair c) = true <;>
      simp [decodeOperand, Opcode.form, OperandForm.Admits, hu, hn]
  | setMode =>
    by_cases hu : immUnused c = 0#14 <;> by_cases hm : modeFieldOk (immPair c) = true <;>
      simp [decodeOperand, Opcode.form, OperandForm.Admits, hu, hm]

/-- A word with RSV = 0 and an assigned opcode is decoded by that opcode's form. -/
theorem decodeCommand_of_fields {c : Word} {o : Opcode} (hrsv : rsvField c = 0#8) (hop : opField c = o.byte) :
    decodeCommand c = decodeOperand o c := by
  simp [decodeCommand, hrsv, hop]

/-- The decoder accepts a word exactly when RSV = 0, the opcode is assigned and its form admits the operands (R85). -/
theorem decodeCommand_accepts_iff (c : Word) :
    (∃ i, decodeCommand c = .instr i) ↔ rsvField c = 0#8 ∧ ∃ o : Opcode, opField c = o.byte ∧ o.form.Admits c := by
  constructor
  · rintro ⟨i, h⟩
    obtain ⟨hrsv, o, hop, hi⟩ := decodeCommand_eq_instr h
    exact ⟨hrsv, o, hop, (decodeOperand_accepts_iff o c).1 ⟨i, hi⟩⟩
  · rintro ⟨hrsv, o, hop, hadm⟩
    rw [decodeCommand_of_fields hrsv hop]
    exact (decodeOperand_accepts_iff o c).2 hadm

end Sys2Proof

namespace Sys2Proof.Machine

/-! ### The words `legal` accepts -/

/-- The opcodes R85 lists are the assigned ones (R84). -/
theorem opcode_listed_iff {b : Byte} :
    b ∈ [0x00#8, 0x01#8, 0x02#8, 0x03#8, 0x04#8, 0x05#8, 0x10#8, 0x11#8, 0x12#8, 0x13#8, 0x14#8] ↔
      ∃ o : Opcode, b = o.byte := by
  constructor
  · simp only [List.mem_cons, List.not_mem_nil, or_false]
    rintro (h | h | h | h | h | h | h | h | h | h | h)
    exacts [⟨.nop, h⟩, ⟨.crc8, h⟩, ⟨.convT, h⟩, ⟨.convH, h⟩, ⟨.validate, h⟩, ⟨.flush, h⟩, ⟨.openSession, h⟩,
      ⟨.closeSession, h⟩, ⟨.setMode, h⟩, ⟨.readStatus, h⟩, ⟨.readTH, h⟩]
  · rintro ⟨o, rfl⟩
    cases o <;> decide

/-- The three operand clauses of R85 say together that the opcode's form admits the operands. -/
theorem operand_clauses_iff (o : Opcode) (c : Word) :
    ((o.byte ∈ [0x00#8, 0x05#8, 0x10#8, 0x11#8, 0x13#8, 0x14#8] → immField c = 0#16) ∧
      (o.byte = 0x04#8 → immUnused c = 0#14 ∧ immPair c ∈ [1#2, 2#2]) ∧
      (o.byte = 0x12#8 → immUnused c = 0#14 ∧ immPair c ∈ [0#2, 1#2, 2#2])) ↔ o.form.Admits c := by
  rw [← groupCountOk_iff_mem, ← modeFieldOk_iff_mem]
  cases o <;> simp [Opcode.byte, Opcode.form, OperandForm.Admits]

/-- `legal` in the decoder's terms: RSV = 0, an assigned opcode and an operand its form admits (R85). -/
theorem legalWord_iff (c : Word) :
    legalWord c ↔ rsvField c = 0#8 ∧ ∃ o : Opcode, opField c = o.byte ∧ o.form.Admits c := by
  refine and_congr_right fun _ => ⟨?_, ?_⟩
  · rintro ⟨hlisted, hclauses⟩
    obtain ⟨o, hop⟩ := opcode_listed_iff.1 hlisted
    rw [hop] at hclauses
    exact ⟨o, hop, (operand_clauses_iff o c).1 hclauses⟩
  · rintro ⟨o, hop, hadm⟩
    refine ⟨opcode_listed_iff.2 ⟨o, hop⟩, ?_⟩
    rw [show c.extractLsb' 0 8 = o.byte from hop]
    exact (operand_clauses_iff o c).2 hadm

/-! ### A write of an instruction port as a step -/

section
variable {s : State} {rest : List HostEvent} {p : InstrPort} {w : Word}

theorem portOffset_carried (p : InstrPort) : portOffset p % 4 = 0 ∧ portOffset p < 0x80 := by
  cases p <;> decide

/-- A write of an instruction port is `writeInstr`, after the access is taken and `returned` cleared (R66, R81). -/
theorem step_instrWrite (h : s.incoming = instrWrite p w :: rest) :
    step s = writeInstr p w { s with incoming := rest, returned := none } :=
  (step_wordWrite (portOffset_carried p) h).trans (portWrite_portOffset _ p w)

theorem step_instrWrite_of_instr {i : Instr} (hd : decode p w = .instr i) (h : s.incoming = instrWrite p w :: rest) :
    step s = exec i { s with incoming := rest, returned := none } := by
  simp [step_instrWrite h, writeInstr, hd]

theorem step_instrWrite_of_illegal {r : IllegalReason} (hd : decode p w = .illegal r)
    (h : s.incoming = instrWrite p w :: rest) :
    step s = .next (raise .illegal { s with incoming := rest, returned := none }) := by
  simp [step_instrWrite h, writeInstr, hd]

end

end Sys2Proof.Machine

open Sys2Proof Sys2Proof.Machine

/-- Settles O12: the decoder and `legal` both ask for RSV = 0, an assigned opcode and an operand its form admits. -/
theorem decoderAcceptsExactlyLegalWords : Obligations.DecoderAcceptsExactlyLegalWords :=
  fun c => (decodeCommand_accepts_iff c).trans (legalWord_iff c).symm

/-- Settles O13: a word `legal` rejects is one the decoder rejects (O12), and its write only raises IllegalCommand. -/
theorem illegalWordOnlyWritesErr : Obligations.IllegalWordOnlyWritesErr := by
  intro s rest c hillegal hs
  cases hd : decode .cmd c with
  | instr i => exact absurd ((decoderAcceptsExactlyLegalWords c).1 ⟨i, hd⟩) hillegal
  | illegal r => exact step_instrWrite_of_illegal hd hs

/-- Settles O14: every RXDATA word decodes to the push of its low byte, and the step runs that push. -/
theorem pushWordPushesLowByte : Obligations.PushWordPushesLowByte := by
  have hdecode : ∀ d : Word, decode .rxdata d = .instr (.push (d.extractLsb' 0 8)) := fun _ => rfl
  exact ⟨hdecode, fun _ _ d hs => step_instrWrite_of_instr (hdecode d) hs⟩

end

section
/-! PROOFS. The accuracy mode (40_mode.md): the command descriptors as the port reads them, SETMODE, and its words. -/

namespace Sys2Proof

/-! ### The words of one opcode -/

/-- No two opcodes share a byte (R84). -/
theorem Opcode.byte_injective {o o' : Opcode} (h : o.byte = o'.byte) : o = o' :=
  Option.some.inj (by rw [← opcodeOf_byte o, h, opcodeOf_byte])

/-- A word of an assigned opcode is accepted exactly when RSV = 0 and the opcode's form admits its operand (R85). -/
theorem decodeCommand_accepts_of_opcode {c : Word} {o : Opcode} (hop : opField c = o.byte) :
    (∃ i, decodeCommand c = .instr i) ↔ rsvField c = 0#8 ∧ o.form.Admits c := by
  refine (decodeCommand_accepts_iff c).trans (and_congr_right fun _ => ⟨?_, fun hadm => ⟨o, hop, hadm⟩⟩)
  rintro ⟨o', hop', hadm⟩
  exact Opcode.byte_injective (hop'.symm.trans hop) ▸ hadm

/-- A word with RSV = 0 is the command word of its opcode and its IMM16 (R82). -/
theorem eq_commandWord {c : Word} {o : Opcode} (hrsv : rsvField c = 0#8) (hop : opField c = o.byte) :
    c = commandWord o (immField c) := by
  rw [commandWord, ← hrsv, ← hop]
  exact (word_fields c).symm

/-- Where IMM16[15:2] is zero, IMM16 is the two-bit operand of the N and M forms (R83). -/
theorem immField_eq_pair {c : Word} (h : immUnused c = 0#14) : immField c = (immPair c).setWidth 16 := by
  have hfields : immUnused c ++ immPair c = immField c := BitVec.extractLsb'_append_extractLsb'_eq_extractLsb' rfl
  rw [← hfields, h]
  generalize immPair c = n
  revert n; decide

@[simp] theorem immPair_commandWord_pair (o : Opcode) (n : BitVec 2) :
    immPair (commandWord o (n.setWidth 16)) = n := by
  rw [immPair_eq, immField_commandWord, pair_low]

@[simp] theorem immUnused_commandWord_pair (o : Opcode) (n : BitVec 2) :
    immUnused (commandWord o (n.setWidth 16)) = 0#14 := by
  rw [immUnused_eq, immField_commandWord, pair_unused]

/-! ### The words of SETMODE -/

theorem modeFieldOk_iff_ne_three (m : BitVec 2) : modeFieldOk m = true ↔ m ≠ 3#2 := by
  simp [modeFieldOk]

theorem decode_encode_setMode {m : BitVec 2} (hm : modeFieldOk m = true) :
    decode .cmd (encode (.setMode m)) = .instr (.setMode m) := by
  show decodeCommand (commandWord .setMode (m.setWidth 16)) = _
  rw [decodeCommand_commandWord]
  simp [decodeOperand, hm]

/-- The word of SETMODE by its bits: zeros, m, and the opcode (R83, R84). -/
theorem encode_setMode (m : BitVec 2) : encode (.setMode m) = 0#22 ++ m ++ 0x12#8 := by
  revert m; decide

/-- The legal words with the opcode of SETMODE are the words of SETMODE 0, 1 and 2 (R83, R85). -/
theorem setMode_word_accepted_iff {c : Word} (hop : opField c = Opcode.setMode.byte) :
    (∃ i, decode .cmd c = .instr i) ↔ ∃ m ∈ [0#2, 1#2, 2#2], c = encode (.setMode m) := by
  constructor
  · intro haccepted
    obtain ⟨hrsv, hunused, hmode⟩ := (decodeCommand_accepts_of_opcode hop).1 haccepted
    refine ⟨immPair c, (modeFieldOk_iff_mem _).1 hmode, ?_⟩
    rw [encode, ← immField_eq_pair hunused]
    exact eq_commandWord hrsv hop
  · rintro ⟨m, hm, rfl⟩
    exact ⟨_, decode_encode_setMode ((modeFieldOk_iff_mem m).2 hm)⟩

end Sys2Proof

namespace Sys2Proof.Machine

variable (s : State)

/-! ### The descriptor registers -/

theorem portRead_descTH : portRead s 0x030 = (desc s.mode).pack := portRead_offset s .descTH

theorem portRead_descTH_of_low {s : State} (h : s.mode = .low) : portRead s 0x030 = 0x06042416#32 := by
  rw [portRead_descTH, h]
  rfl

theorem portRead_descStatus : portRead s 0x034 = 0x0304F32D#32 := portRead_offset s .descStatus

/-! ### ERR in the terms of the statements -/

theorem succeed_eq : succeed s = { s with err := errCode 0#4 } := rfl

theorem raise_state_eq : raise .state s = { s with err := errCode 2#4 } := rfl

theorem raise_illegal_eq : raise .illegal s = { s with err := errCode 4#4 } := rfl

/-! ### The outcomes of SETMODE -/

/-- The M form's legal operands are the ones that name a mode (R24, R83). -/
theorem Mode.ofField_isSome_iff : ∀ m : BitVec 2, (Mode.ofField m).isSome ↔ m ≠ 3#2 := by decide

section
variable {s} {m : BitVec 2}

/-- With a session open SETMODE writes MODE and ERR and nothing else (R102). -/
theorem exec_setMode_of_open {mode : Mode} (hm : Mode.ofField m = some mode) (hen : s.en = true) :
    exec (.setMode m) s = .next { s with mode := mode, err := errCode 0#4 } := by
  obtain ⟨mode', hm', -, h⟩ | ⟨-, hclosed, -⟩ | ⟨hnone, -⟩ := exec_setMode_cases s m
  · obtain rfl : mode = mode' := Option.some.inj (hm.symm.trans hm')
    rw [h, succeed_eq, setMode]
  · simp [hen] at hclosed
  · simp [hm] at hnone

/-- With no session open a legal SETMODE raises StateError (R102, R203). -/
theorem exec_setMode_of_closed (hm : m ≠ 3#2) (hen : s.en = false) :
    exec (.setMode m) s = .next { s with err := errCode 2#4 } := by
  obtain ⟨-, -, hopen, -⟩ | ⟨-, -, h⟩ | ⟨hnone, -⟩ := exec_setMode_cases s m
  · simp [hen] at hopen
  · rw [h, raise_state_eq]
  · have hsome := (Mode.ofField_isSome_iff m).2 hm
    simp [hnone] at hsome

end

/-- SETMODE 3 raises IllegalCommand whatever EN is (R86, R222). -/
theorem exec_setMode_three : exec (.setMode 3#2) s = .next { s with err := errCode 4#4 } := by
  have hnone : Mode.ofField 3#2 = none := rfl
  obtain ⟨mode, hm, -⟩ | ⟨hm, -⟩ | ⟨-, h⟩ := exec_setMode_cases s 3#2
  · simp [hnone] at hm
  · simp [hnone] at hm
  · rw [h, raise_illegal_eq]

end Sys2Proof.Machine

open Sys2Proof Sys2Proof.Machine

/-- Settles O39: SETMODE sets MODE in an open session, raises StateError in a closed one and IllegalCommand for m = 3;
a word of its opcode is legal exactly when it encodes m = 0, 1 or 2; DESC_TH follows MODE. -/
theorem setModeResult : Obligations.SetModeResult := by
  refine ⟨fun s hen => ⟨exec_setMode_of_open rfl hen, exec_setMode_of_open rfl hen, exec_setMode_of_open rfl hen⟩,
    fun m s => exec_setMode_of_closed, exec_setMode_three, fun m hm => ?_, fun c hop => ?_, fun s t hen ht => ?_⟩
  · rw [← encode_setMode]
    exact decode_encode_setMode ((modeFieldOk_iff_ne_three m).2 hm)
  · simpa [encode_setMode] using setMode_word_accepted_iff (c := c) hop
  · rw [exec_setMode_of_open rfl hen] at ht
    cases ht
    exact portRead_descTH_of_low rfl

/-- Settles O4: DESC_TH reads the packed descriptor of MODE and DESC_STATUS the packed probe descriptor, in every state. -/
theorem descriptorTable : Obligations.DescriptorTable := by
  refine ⟨⟨rfl, rfl, rfl, rfl⟩, fun s => ⟨?_, portRead_descStatus s⟩, portRead_descTH State.reset,
    desc_replyLength, descStatus_replyLength⟩
  rw [portRead_descTH]
  cases s.mode with
  | high | medium | low => rfl

end

section
/-! PROOFS. The reply buffer and the read pipeline (41_pipeline.md): PUSH, FLUSH, VALIDATE, READ_STATUS, READ_TH, their
words, and what a command that reports an error leaves unwritten. -/

namespace Sys2Proof

/-! ### The words of the Z and N forms -/

/-- The only legal word of a Z-form opcode is its command word with IMM16 = 0 (R83, R85). -/
theorem zForm_word_accepted_iff {c : Word} {o : Opcode} (hform : o.form = .z) (hop : opField c = o.byte) :
    (∃ i, decode .cmd c = .instr i) ↔ c = commandWord o 0#16 := by
  refine (decodeCommand_accepts_of_opcode hop).trans ?_
  rw [hform]
  constructor
  · rintro ⟨hrsv, himm : immField c = 0#16⟩
    rw [← himm]
    exact eq_commandWord hrsv hop
  · rintro rfl
    exact ⟨rsvField_commandWord o _, immField_commandWord o _⟩

theorem decode_encode_validate {n : BitVec 2} (hn : groupCountOk n = true) :
    decode .cmd (encode (.validate n)) = .instr (.validate n) := by
  show decodeCommand (commandWord .validate (n.setWidth 16)) = _
  rw [decodeCommand_commandWord]
  simp [decodeOperand, hn]

/-- The word of VALIDATE by its bits: zeros, n, and the opcode (R83, R84). -/
theorem encode_validate (n : BitVec 2) : encode (.validate n) = 0#22 ++ n ++ 0x04#8 := by
  revert n; decide

/-- The legal words with the opcode of VALIDATE are the words of VALIDATE 1 and 2 (R83, R85). -/
theorem validate_word_accepted_iff {c : Word} (hop : opField c = Opcode.validate.byte) :
    (∃ i, decode .cmd c = .instr i) ↔ ∃ n ∈ [1#2, 2#2], c = encode (.validate n) := by
  constructor
  · intro haccepted
    obtain ⟨hrsv, hunused, hcount⟩ := (decodeCommand_accepts_of_opcode hop).1 haccepted
    refine ⟨immPair c, (groupCountOk_iff_mem _).1 hcount, ?_⟩
    rw [encode, ← immField_eq_pair hunused]
    exact eq_commandWord hrsv hop
  · rintro ⟨n, hn, rfl⟩
    exact ⟨_, decode_encode_validate ((groupCountOk_iff_mem n).2 hn)⟩

end Sys2Proof

namespace Sys2Proof.Machine

/-! ### PUSH -/

/-- An accepted push writes the byte at index RXCNT and keeps every other byte (R120). -/
theorem pushByte_buf_of_lt {s : State} (b : Byte) (h : s.rxcnt.toNat < 6) (i : Fin 6) :
    (pushByte b s).buf[i] = if i.val = s.rxcnt.toNat then b else s.buf[i] := by
  rw [pushByte_of_lt b h]
  simp [Vector.getElem_set, eq_comm]

/-! ### What a consuming command does with each frame, in the terms of the statements -/

section
variable {s : State} {need n : Nat} (commit : State → State)

/-- A frame that overflowed or has the wrong length is consumed and LENGTH reported (R122, R127). -/
theorem consuming_of_length (h : s.ovf = true ∨ s.rxcnt.toNat ≠ need) :
    consuming need n commit s = { s with rxcnt := 0#3, ovf := false, err := errCode 3#4 } :=
  consuming_of_some commit (h.elim (frameError_of_overflow need n) (frameError_of_length n))

variable (ho : s.ovf = false) (hc : s.rxcnt.toNat = need)
include ho hc

/-- A bad group 0 is reported whatever group 1 holds (R124). -/
theorem consuming_of_bad_first (hn : 0 < n) (hbad : crc8 s.buf[0] s.buf[1] ≠ s.buf[2]) :
    consuming need n commit s = { s with
      rxcnt := 0#3, ovf := false, err := errIntegrity 0#2 s.buf[2] (crc8 s.buf[0] s.buf[1]) } := by
  obtain ⟨k, rfl⟩ : ∃ k, n = k + 1 := ⟨n - 1, by omega⟩
  have hframe : frameError need (k + 1) s = some (.integrity 0 s.buf[2] (crc8 s.buf[0] s.buf[1])) :=
    (frameError_of_exact _ ho hc).trans (if_pos hbad)
  exact consuming_of_some commit hframe

theorem consuming_one_of_good (h0 : crc8 s.buf[0] s.buf[1] = s.buf[2]) :
    consuming need 1 commit s = succeed (commit (consume s)) :=
  consuming_of_none commit ((frameError_of_exact 1 ho hc).trans (if_neg (not_not.2 h0)))

variable (h0 : crc8 s.buf[0] s.buf[1] = s.buf[2])
include h0

/-- A bad group 1 is reported where group 0 is valid (R124). -/
theorem consuming_two_of_bad_second (hbad : crc8 s.buf[3] s.buf[4] ≠ s.buf[5]) :
    consuming need 2 commit s = { s with
      rxcnt := 0#3, ovf := false, err := errIntegrity 1#2 s.buf[5] (crc8 s.buf[3] s.buf[4]) } := by
  have hframe : frameError need 2 s = some (.integrity 1 s.buf[5] (crc8 s.buf[3] s.buf[4])) :=
    (frameError_of_exact 2 ho hc).trans ((if_neg (not_not.2 h0)).trans (if_pos hbad))
  exact consuming_of_some commit hframe

theorem consuming_two_of_good (h1 : crc8 s.buf[3] s.buf[4] = s.buf[5]) :
    consuming need 2 commit s = succeed (commit (consume s)) :=
  consuming_of_none commit
    ((frameError_of_exact 2 ho hc).trans ((if_neg (not_not.2 h0)).trans (if_neg (not_not.2 h1))))

end

/-! ### The checks before the frame -/

section
variable {s : State}

theorem exec_validate_of_ok {n : BitVec 2} (hn : n = 1#2 ∨ n = 2#2) :
    exec (.validate n) s = .next (consuming (3 * n.toNat) n.toNat (commitWords n) s) := by
  obtain ⟨-, h⟩ | ⟨hbad, -⟩ := exec_validate_cases s n
  · exact h
  · obtain rfl | rfl := hn <;> cases hbad

/-- VALIDATE 0 and 3 raise IllegalCommand before any check of the frame (R86, R222). -/
theorem exec_validate_of_illegal {n : BitVec 2} (hn : n = 0#2 ∨ n = 3#2) :
    exec (.validate n) s = .next { s with err := errCode 4#4 } := by
  obtain ⟨hok, -⟩ | ⟨-, h⟩ := exec_validate_cases s n
  · obtain rfl | rfl := hn <;> cases hok
  · exact h

theorem exec_readStatus_of_open (hen : s.en = true) :
    exec .readStatus s = .next (consuming 3 1 (fun s => setWord0 (rawWord s.buf 0) s) s) := by
  obtain ⟨-, h⟩ | ⟨hclosed, -⟩ := exec_readStatus_cases s
  · exact h
  · simp [hen] at hclosed

theorem exec_readStatus_of_closed (hen : s.en = false) :
    exec .readStatus s = .next { s with err := errCode 2#4 } := by
  obtain ⟨hopen, -⟩ | ⟨-, h⟩ := exec_readStatus_cases s
  · simp [hen] at hopen
  · exact h

theorem exec_readTH_of_open (hen : s.en = true) : exec .readTH s = .next (consuming 6 2 commitReading s) := by
  obtain ⟨-, h⟩ | ⟨hclosed, -⟩ := exec_readTH_cases s
  · exact h
  · simp [hen] at hclosed

theorem exec_readTH_of_closed (hen : s.en = false) : exec .readTH s = .next { s with err := errCode 2#4 } := by
  obtain ⟨hopen, -⟩ | ⟨-, h⟩ := exec_readTH_cases s
  · simp [hen] at hopen
  · exact h

end

/-! ### How a command can end -/

/-- The three ends of a command (R127, R222, R223): it succeeds; it is rejected before the consume; or its frame is bad and
it reports that after the consume. -/
inductive CommandOutcome (s : State) : State → Prop
  | succeeds (t : State) : CommandOutcome s (succeed t)
  | rejected (e : CommandError) (he : e = .state ∨ e = .illegal) : CommandOutcome s (raise e s)
  | badFrame {need n : Nat} (e : CommandError) (he : frameError need n s = some e) : CommandOutcome s (raise e (consume s))

section
variable (s : State)

theorem consuming_outcome (need n : Nat) (commit : State → State) :
    CommandOutcome s (consuming need n commit s) := by
  obtain ⟨-, h⟩ | ⟨e, he, h⟩ := consuming_cases s need n commit
  · exact h ▸ .succeeds _
  · exact h ▸ .badFrame e he

/-- Every command ends in one of the three ways. -/
theorem exec_commandOutcome {i : Instr} (hi : i.port = .cmd) : ∃ t, exec i s = .next t ∧ CommandOutcome s t := by
  cases i with
  | nop | crc8 | convT | convH | flush | closeSession => exact ⟨_, rfl, .succeeds _⟩
  | push b => cases hi
  | validate n =>
    obtain ⟨-, h⟩ | ⟨-, h⟩ := exec_validate_cases s n
    · exact ⟨_, h, consuming_outcome s _ _ _⟩
    · exact ⟨_, h, .rejected _ (.inr rfl)⟩
  | openSession =>
    obtain ⟨-, h⟩ | ⟨-, h⟩ := exec_openSession_cases s
    · exact ⟨_, h, consuming_outcome s _ _ _⟩
    · exact ⟨_, h, .rejected _ (.inl rfl)⟩
  | setMode m =>
    obtain ⟨mode, -, -, h⟩ | ⟨-, -, h⟩ | ⟨-, h⟩ := exec_setMode_cases s m
    · exact ⟨_, h, .succeeds _⟩
    · exact ⟨_, h, .rejected _ (.inl rfl)⟩
    · exact ⟨_, h, .rejected _ (.inr rfl)⟩
  | readStatus =>
    obtain ⟨-, h⟩ | ⟨-, h⟩ := exec_readStatus_cases s
    · exact ⟨_, h, consuming_outcome s _ _ _⟩
    · exact ⟨_, h, .rejected _ (.inl rfl)⟩
  | readTH =>
    obtain ⟨-, h⟩ | ⟨-, h⟩ := exec_readTH_cases s
    · exact ⟨_, h, consuming_outcome s _ _ _⟩
    · exact ⟨_, h, .rejected _ (.inl rfl)⟩

end

end Sys2Proof.Machine

open Sys2Proof Sys2Proof.Machine

/-- Settles O31: an accepted push is `pushByte` below RXCNT = 6, with its byte at index RXCNT; a full buffer only sets OVF;
every RXDATA word decodes to the push of its low byte (O14). -/
theorem pushResult : Obligations.PushResult := by
  refine ⟨fun b s hlt => ⟨pushByte b s, exec_push s b, ?_, pushByte_rxcnt_of_lt b hlt, pushByte_buf_of_lt b hlt⟩,
    fun b s hfull => ?_, pushWordPushesLowByte.1⟩
  · rw [pushByte_of_lt b hlt]
  · rw [exec_push, pushByte_of_full b (Nat.not_lt.2 hfull)]

/-- Settles O33: FLUSH is a consume and a success, and its word is the Z-form word of its opcode. -/
theorem flushResult : Obligations.FlushResult :=
  ⟨exec_flush, by decide, fun _ hop => zForm_word_accepted_iff (o := .flush) rfl hop⟩

/-- Settles O34: VALIDATE 1 and 2 are the consuming command of one and of two groups, each frame in its case; VALIDATE 0
and 3 are rejected first; a word of its opcode is legal exactly when it encodes n = 1 or 2. -/
theorem validateResult : Obligations.ValidateResult := by
  refine ⟨fun s ho hc h0 => ?_, fun s ho hc h0 h1 => ?_, fun n s hn hlen => ?_, fun n s hn ho hc hbad => ?_,
    fun s ho hc h0 hbad => ?_, fun n s => exec_validate_of_illegal, by decide, fun c hop => ?_, by decide⟩
  · rw [exec_validate_of_ok (.inl rfl)]
    exact congrArg _ (consuming_one_of_good _ ho hc h0)
  · rw [exec_validate_of_ok (.inr rfl)]
    exact congrArg _ (consuming_two_of_good _ ho hc h0 h1)
  · rw [exec_validate_of_ok hn, consuming_of_length _ hlen]
  · have hpos : 0 < n.toNat := by obtain rfl | rfl := hn <;> decide
    rw [exec_validate_of_ok hn, consuming_of_bad_first _ ho hc hpos hbad]
  · rw [exec_validate_of_ok (.inr rfl)]
    exact congrArg _ (consuming_two_of_bad_second _ ho hc h0 hbad)
  · simpa [encode_validate] using validate_word_accepted_iff (c := c) hop

/-- Settles O35: in an open session READ_STATUS is the consuming command of one group, each frame in its case; in a closed
one it raises StateError; its word is the Z-form word of its opcode. -/
theorem readStatusResult : Obligations.ReadStatusResult := by
  refine ⟨fun s hen ho hc h0 => ?_, fun s => exec_readStatus_of_closed, fun s hen hlen => ?_,
    fun s hen ho hc hbad => ?_, by decide, fun c hop => zForm_word_accepted_iff (o := .readStatus) rfl hop⟩
  · rw [exec_readStatus_of_open hen, consuming_one_of_good _ ho hc h0]
    rfl
  · rw [exec_readStatus_of_open hen, consuming_of_length _ hlen]
  · rw [exec_readStatus_of_open hen, consuming_of_bad_first _ ho hc Nat.one_pos hbad]

/-- Settles O36: in an open session READ_TH is the consuming command of two groups in every mode, each frame in its case;
in a closed one it raises StateError; its word is the Z-form word of its opcode. -/
theorem readTHResult : Obligations.ReadTHResult := by
  refine ⟨fun s hen ho hc h0 h1 => ?_, fun s => exec_readTH_of_closed, fun s hen hlen => ?_, fun s hen ho hc hbad => ?_,
    fun s hen ho hc h0 hbad => ?_, by decide, fun c hop => zForm_word_accepted_iff (o := .readTH) rfl hop⟩
  · rw [exec_readTH_of_open hen, consuming_two_of_good _ ho hc h0 h1]
    rfl
  · rw [exec_readTH_of_open hen, consuming_of_length _ hlen]
  · rw [exec_readTH_of_open hen, consuming_of_bad_first _ ho hc Nat.two_pos hbad]
  · rw [exec_readTH_of_open hen, consuming_two_of_bad_second _ ho hc h0 hbad]

/-- Settles O44: a command that did not succeed wrote ERR, and at most RXCNT and OVF by the consume. -/
theorem allOrNothingCommit : Obligations.AllOrNothingCommit := by
  intro i s t hi ht hfail
  obtain ⟨t', ht', hout⟩ := exec_commandOutcome s hi
  obtain rfl : t = t' := Host.Outcome.next.inj (ht.symm.trans ht')
  cases hout with
  | succeeds u => exact absurd rfl hfail
  | rejected e | badFrame e => simp

end

section
/-! PROOFS. The checksum (42_checksum.md): its computation over natural numbers, its linearity over XOR, and CRC8. -/

namespace Sys2Proof.Machine

/-! ### The pseudocode of R160 over natural numbers -/

/-- One round of the pseudocode, truncated to 8 bits (R160). -/
def crcRoundNat (crc : Nat) : Nat :=
  if crc &&& 0x80 ≠ 0 then ((crc <<< 1) &&& 0xFF) ^^^ 0x31 else (crc <<< 1) &&& 0xFF

/-- The pseudocode's truncation to 8 bits is the width of the byte. -/
theorem shiftLeft_one_toNat (x : Byte) : (x <<< 1).toNat = (x.toNat <<< 1) &&& 0xFF := by
  rw [BitVec.toNat_shiftLeft]
  exact (Nat.and_two_pow_sub_one_eq_mod _ 8).symm

theorem crcRound_toNat (x : Byte) : (crcRound x).toNat = crcRoundNat x.toNat := by
  have hbit : x &&& 0x80#8 ≠ 0#8 ↔ x.toNat &&& 0x80 ≠ 0 := by simp [← BitVec.toNat_inj]
  unfold crcRound crcRoundNat
  by_cases h : x &&& 0x80#8 ≠ 0#8
  · rw [if_pos h, if_pos (hbit.1 h), BitVec.toNat_xor, shiftLeft_one_toNat]
    rfl
  · rw [if_neg h, if_neg (mt hbit.2 h), shiftLeft_one_toNat]

theorem crcRounds_toNat (k : Nat) (x : Byte) : (crcRounds k x).toNat = crcRoundNat^[k] x.toNat := by
  induction k generalizing x with
  | zero => rfl
  | succ k ih => rw [crcRounds, ih, crcRound_toNat, Function.iterate_succ_apply]

theorem crcByte_toNat (crc v : Byte) : (crcByte crc v).toNat = crcRoundNat^[8] (crc.toNat ^^^ v.toNat) := by
  rw [crcByte, crcRounds_toNat, BitVec.toNat_xor]

/-! ### The step table T = `crcRounds 8` is linear and injective (R163 (a)) -/

theorem crcRounds_xor (k : Nat) (x y : Byte) : crcRounds k (x ^^^ y) = crcRounds k x ^^^ crcRounds k y := by
  induction k generalizing x y with
  | zero => rfl
  | succ k ih => simp only [crcRounds, crcRound_xor, ih]

theorem crcRound_eq_zero_iff (x : Byte) : crcRound x = 0#8 ↔ x = 0#8 :=
  of_decide_eq_true (byte_forall (fun x => decide (crcRound x = 0#8 ↔ x = 0#8)) (by decide +kernel) x)

theorem crcRound_injective : Function.Injective crcRound := by
  intro x y h
  have hdiff : crcRound (x ^^^ y) = 0#8 := by rw [crcRound_xor, h, BitVec.xor_self]
  exact BitVec.xor_eq_zero_iff.1 ((crcRound_eq_zero_iff _).1 hdiff)

theorem crcRounds_injective (k : Nat) : Function.Injective (crcRounds k) := by
  induction k with
  | zero => exact fun _ _ h => h
  | succ k ih => exact ih.comp crcRound_injective

/-- The fixed points of T (R163 (d)). -/
theorem crcRounds_eight_fixed_iff (x : Byte) : crcRounds 8 x = x ↔ x = 0x00#8 ∨ x = 0xEF#8 :=
  of_decide_eq_true
    (byte_forall (fun x => decide (crcRounds 8 x = x ↔ x = 0x00#8 ∨ x = 0xEF#8)) (by decide +kernel) x)

/-- The checksum is affine in each byte; its constant is T[T[0xFF]] (R163 (b)). -/
theorem crc8_affine (a b : Byte) : crc8 a b = 0x81#8 ^^^ crcRounds 8 (crcRounds 8 a) ^^^ crcRounds 8 b := by
  have hinit : crcRounds 8 (crcRounds 8 Config.crcInit) = 0x81#8 := by decide
  simp only [crc8, crcByte, crcRounds_xor, hinit]

/-- Two checksums with the bytes swapped agree exactly when T fixes the difference of the bytes (R163 (d)). -/
theorem crc8_swap_iff_fixed (a b : Byte) : crc8 a b = crc8 b a ↔ crcRounds 8 (a ^^^ b) = a ^^^ b := by
  have hsum : crc8 a b ^^^ crc8 b a = crcRounds 8 (crcRounds 8 (a ^^^ b)) ^^^ crcRounds 8 (a ^^^ b) := by
    rw [crc8_affine a b, crc8_affine b a]
    simp only [crcRounds_xor]
    generalize crcRounds 8 (crcRounds 8 a) = p, crcRounds 8 (crcRounds 8 b) = q
    generalize crcRounds 8 a = u, crcRounds 8 b = v
    calc 0x81#8 ^^^ p ^^^ v ^^^ (0x81#8 ^^^ q ^^^ u)
      _ = (0x81#8 ^^^ 0x81#8) ^^^ (p ^^^ q ^^^ (u ^^^ v)) := by ac_rfl
      _ = p ^^^ q ^^^ (u ^^^ v) := by rw [BitVec.xor_self, BitVec.zero_xor]
  rw [← BitVec.xor_eq_zero_iff, hsum, BitVec.xor_eq_zero_iff, (crcRounds_injective 8).eq_iff]

/-! ### CRC8 and its word -/

/-- The word of CRC8 by its bytes: RSV = 0, the two operands, and the opcode (R83, R84). -/
theorem encode_crc8 (hi lo : Byte) : encode (.crc8 hi lo) = 0#8 ++ hi ++ lo ++ 0x01#8 := by
  have hassoc : (0#8 ++ (hi ++ lo) : BitVec 24) = 0#8 ++ hi ++ lo := (BitVec.append_assoc).symm
  exact congrArg (· ++ 0x01#8) hassoc

theorem decode_encode_crc8 (hi lo : Byte) : decode .cmd (encode (.crc8 hi lo)) = .instr (.crc8 hi lo) := by
  show decodeCommand (commandWord .crc8 (hi ++ lo)) = _
  rw [decodeCommand_commandWord]
  simp [decodeOperand, immHigh_eq, immLow_eq, append_high, append_low]

/-! ### CRC_OUT in the other instructions -/

section
variable {s t : State}

theorem consuming_crcOut {need n : Nat} {commit : State → State} (hcommit : ∀ u, (commit u).crcOut = u.crcOut) :
    (consuming need n commit s).crcOut = s.crcOut := by
  obtain ⟨-, h⟩ | ⟨e, -, h⟩ := consuming_cases s need n commit <;> simp [h, hcommit]

@[simp] theorem commitWords_crcOut (n : BitVec 2) : (commitWords n s).crcOut = s.crcOut := by
  unfold commitWords
  split <;> rfl

@[simp] theorem commitReading_crcOut : (commitReading s).crcOut = s.crcOut := rfl

/-- An instruction keeps CRC_OUT or is CRC8 (R29). -/
theorem exec_keeps_crcOut_or_crc8 {i : Instr} (h : exec i s = .next t) :
    t.crcOut = s.crcOut ∨ ∃ hi lo, i = .crc8 hi lo := by
  cases i with
  | crc8 hi lo => exact .inr ⟨hi, lo, rfl⟩
  | nop | convT | convH | flush | closeSession => cases h; exact .inl rfl
  | push b => cases h; exact .inl (pushByte_crcOut s b)
  | validate n =>
    obtain ⟨-, h'⟩ | ⟨-, h'⟩ := exec_validate_cases s n <;> cases h'.symm.trans h
    exacts [.inl (consuming_crcOut fun _ => commitWords_crcOut n), .inl rfl]
  | openSession =>
    obtain ⟨-, h'⟩ | ⟨-, h'⟩ := exec_openSession_cases s <;> cases h'.symm.trans h
    exacts [.inl (consuming_crcOut fun _ => rfl), .inl rfl]
  | setMode m =>
    obtain ⟨mode, -, -, h'⟩ | ⟨-, -, h'⟩ | ⟨-, h'⟩ := exec_setMode_cases s m <;> cases h'.symm.trans h
    exacts [.inl rfl, .inl rfl, .inl rfl]
  | readStatus =>
    obtain ⟨-, h'⟩ | ⟨-, h'⟩ := exec_readStatus_cases s <;> cases h'.symm.trans h
    exacts [.inl (consuming_crcOut fun _ => rfl), .inl rfl]
  | readTH =>
    obtain ⟨-, h'⟩ | ⟨-, h'⟩ := exec_readTH_cases s <;> cases h'.symm.trans h
    exacts [.inl (consuming_crcOut fun _ => commitReading_crcOut), .inl rfl]

end

end Sys2Proof.Machine

open Sys2Proof Sys2Proof.Machine

/-- Settles O19: each round, and so each byte, computes over natural numbers what the pseudocode does. -/
theorem crcFollowsPseudocode : Obligations.CrcFollowsPseudocode := by
  intro a b
  constructor
  · show (crcByte (crcByte Config.crcInit a) b).toNat =
      crcRoundNat^[8] (crcRoundNat^[8] (0xFF ^^^ a.toNat) ^^^ b.toNat)
    rw [crcByte_toNat, crcByte_toNat]
    rfl
  · exact Nat.le_of_lt_succ (crc8 a b).isLt

/-- Settles O28: CRC8 is an equation of the model and its word decodes to it; its form admits every operand, so only RSV
can make its word illegal; every other instruction keeps CRC_OUT; swapped bytes agree at the fixed points of T. -/
theorem crc8Result : Obligations.Crc8Result := by
  refine ⟨fun hi lo s => exec_crc8 s hi lo, fun hi lo => ?_, fun c hop => ?_, fun i s t h hne => ?_, by decide,
    fun a b => (crc8_swap_iff_fixed a b).trans (crcRounds_eight_fixed_iff _)⟩
  · rw [← encode_crc8]
    exact decode_encode_crc8 hi lo
  · exact (decodeCommand_accepts_of_opcode (o := .crc8) hop).trans (and_iff_left trivial)
  · exact (exec_keeps_crcOut_or_crc8 h).resolve_left hne

end

section
/-! PROOFS. The linear scaler (43_conversion.md): the ranges of the converted values, which fit their registers, and the
words of CONV_T and CONV_H. -/

namespace Sys2Proof

/-! ### The words of the W form -/

/-- Every operand is admitted, so only RSV can make a word of the W form illegal (R83, R85). -/
theorem wForm_word_accepted_iff {c : Word} {o : Opcode} (hform : o.form = .w) (hop : opField c = o.byte) :
    (∃ i, decode .cmd c = .instr i) ↔ rsvField c = 0#8 := by
  have hadm : o.form.Admits c := by rw [hform]; trivial
  exact (decodeCommand_accepts_of_opcode hop).trans (and_iff_left hadm)

theorem decode_encode_convT (r : RawWord) : decode .cmd (encode (.convT r)) = .instr (.convT r) := by
  show decodeCommand (commandWord .convT r) = _
  rw [decodeCommand_commandWord, decodeOperand, immField_commandWord]

theorem decode_encode_convH (r : RawWord) : decode .cmd (encode (.convH r)) = .instr (.convH r) := by
  show decodeCommand (commandWord .convH r) = _
  rw [decodeCommand_commandWord, decodeOperand, immField_commandWord]

end Sys2Proof

namespace Sys2Proof.Machine

variable (r : RawWord)

/-! ### The ranges of the converted values (R180-R183) -/

theorem tnum_range : -2949075 ≤ tnum r ∧ tnum r ≤ 8519550 := by
  have hr := r.isLt
  unfold tnum
  omega

theorem tmilli_range : -45000 ≤ tmilli r ∧ tmilli r ≤ 130000 := by
  have hr := r.isLt
  unfold tmilli
  omega

theorem hnum_range : 0 ≤ hnum r ∧ hnum r ≤ 6553500 := by
  have hr := r.isLt
  unfold hnum
  omega

theorem hmilli_range : 0 ≤ hmilli r ∧ hmilli r ≤ 100000 := by
  have hr := r.isLt
  unfold hmilli
  omega

/-! ### The registers hold the values without wrapping (R30-R33) -/

@[simp] theorem sext32_tnum_toInt : (sext32 (tnum r)).toInt = tnum r := by
  have h := tnum_range r
  exact ofInt_toInt (by omega)

@[simp] theorem sext32_tmilli_toInt : (sext32 (tmilli r)).toInt = tmilli r := by
  have h := tmilli_range r
  exact ofInt_toInt (by omega)

@[simp] theorem sext32_hnum_toInt : (sext32 (hnum r)).toInt = hnum r := by
  have h := hnum_range r
  exact ofInt_toInt (by omega)

@[simp] theorem sext32_hmilli_toInt : (sext32 (hmilli r)).toInt = hmilli r := by
  have h := hmilli_range r
  exact ofInt_toInt (by omega)

end Sys2Proof.Machine

open Sys2Proof Sys2Proof.Machine

/-- Settles O29: CONV_T is an equation of the model, the two values fit their registers, and its word is one of the W
form, which admits every operand. -/
theorem convTResult : Obligations.ConvTResult := by
  refine ⟨fun r s => exec_convT s r, fun r s t h => ?_, decode_encode_convT, fun c hop => ?_, by decide⟩
  · cases h
    exact ⟨sext32_tnum_toInt r, sext32_tmilli_toInt r⟩
  · exact wForm_word_accepted_iff (o := .convT) rfl hop

/-- Settles O30: CONV_H is an equation of the model, the two values fit their registers, and its word is one of the W
form, which admits every operand. -/
theorem convHResult : Obligations.ConvHResult := by
  refine ⟨fun r s => exec_convH s r, fun r s t h => ?_, decode_encode_convH, fun c hop => ?_, by decide⟩
  · cases h
    exact ⟨sext32_hnum_toInt r, sext32_hmilli_toInt r⟩
  · exact wForm_word_accepted_iff (o := .convH) rfl hop

end

section
/-! PROOFS. The session life cycle (44_lifecycle.md): OPEN, CLOSE and NOP, their words, and which commands need which
value of EN. -/

namespace Sys2Proof.Machine

/-! ### OPEN -/

section
variable {s : State}

theorem exec_openSession_of_closed (hen : s.en = false) :
    exec .openSession s =
      .next (consuming 3 1 (fun s => setEn true (setMode .high (setWord0 (rawWord s.buf 0) s))) s) := by
  obtain ⟨-, h⟩ | ⟨hopen, -⟩ := exec_openSession_cases s
  · exact h
  · simp [hen] at hopen

/-- An OPEN in an open session raises StateError before the probe is looked at (R200, R222). -/
theorem exec_openSession_of_open (hen : s.en = true) :
    exec .openSession s = .next { s with err := errCode 2#4 } := by
  obtain ⟨hclosed, -⟩ | ⟨-, h⟩ := exec_openSession_cases s
  · simp [hen] at hclosed
  · exact h

/-! ### The commands of an open session -/

/-- With no session open READ_STATUS, READ_TH and a legal SETMODE raise StateError and do nothing else (R203). -/
theorem exec_sessionCommand_of_closed {i : Instr} (hen : s.en = false)
    (hi : i = .readStatus ∨ i = .readTH ∨ ∃ m, i = .setMode m ∧ m ≠ 3#2) :
    exec i s = .next { s with err := errCode 2#4 } := by
  obtain rfl | rfl | ⟨m, rfl, hm⟩ := hi
  · exact exec_readStatus_of_closed hen
  · exact exec_readTH_of_closed hen
  · exact exec_setMode_of_closed hm hen

end

/-! ### Where a StateError comes from -/

/-- The code of StateError is no other error's code (R220). -/
@[simp] theorem ErrRecord.ofError_code_eq_state_iff (e : CommandError) :
    (ErrRecord.ofError e).code = 2#4 ↔ e = .state := by
  cases e <;> simp [ErrRecord.ofError]

section
variable (s : State)

theorem succeed_code_ne_state : (succeed s).err.code ≠ 2#4 := by
  rw [succeed_err]
  decide

/-- A consuming command past its session check never reports StateError (R222). -/
theorem consuming_code_ne_state (need n : Nat) (commit : State → State) :
    (consuming need n commit s).err.code ≠ 2#4 := by
  obtain ⟨-, h⟩ | ⟨e, he, h⟩ := consuming_cases s need n commit
  · rw [h]
    exact succeed_code_ne_state _
  · obtain rfl | ⟨g, rfl⟩ := frameError_eq_some he <;> simp [h]

end

/-- A command that reports StateError is one that needs the other value of EN (R203). -/
theorem neededSession_of_stateError {s t : State} {i : Instr} (hi : i.port = .cmd) (h : exec i s = .next t)
    (hcode : t.err.code = 2#4) : neededSession i = some (!s.en) := by
  cases i with
  | push b => cases hi
  | nop | crc8 | convT | convH | flush | closeSession =>
    cases h
    exact absurd hcode (succeed_code_ne_state _)
  | validate n =>
    obtain ⟨-, h'⟩ | ⟨-, h'⟩ := exec_validate_cases s n <;> cases h'.symm.trans h
    · exact absurd hcode (consuming_code_ne_state s _ _ _)
    · simp at hcode
  | openSession =>
    obtain ⟨-, h'⟩ | ⟨hen, -⟩ := exec_openSession_cases s
    · cases h'.symm.trans h
      exact absurd hcode (consuming_code_ne_state s _ _ _)
    · simp [neededSession, hen]
  | setMode m =>
    obtain ⟨mode, -, -, h'⟩ | ⟨-, hen, -⟩ | ⟨-, h'⟩ := exec_setMode_cases s m
    · cases h'.symm.trans h
      exact absurd hcode (succeed_code_ne_state _)
    · simp [neededSession, hen]
    · cases h'.symm.trans h
      simp at hcode
  | readStatus =>
    obtain ⟨-, h'⟩ | ⟨hen, -⟩ := exec_readStatus_cases s
    · cases h'.symm.trans h
      exact absurd hcode (consuming_code_ne_state s _ _ _)
    · simp [neededSession, hen]
  | readTH =>
    obtain ⟨-, h'⟩ | ⟨hen, -⟩ := exec_readTH_cases s
    · cases h'.symm.trans h
      exact absurd hcode (consuming_code_ne_state s _ _ _)
    · simp [neededSession, hen]

end Sys2Proof.Machine

open Sys2Proof Sys2Proof.Machine

/-- Settles O37: in a closed session OPEN is the consuming command of one group, each frame in its case; in an open one
it raises StateError; its word is the Z-form word of its opcode. -/
theorem openResult : Obligations.OpenResult := by
  refine ⟨fun s hen ho hc h0 => ?_, fun s => exec_openSession_of_open, fun s hen hlen => ?_,
    fun s hen ho hc hbad => ?_, by decide, fun c hop => zForm_word_accepted_iff (o := .openSession) rfl hop⟩
  · rw [exec_openSession_of_closed hen, consuming_one_of_good _ ho hc h0]
    rfl
  · rw [exec_openSession_of_closed hen, consuming_of_length _ hlen]
  · rw [exec_openSession_of_closed hen, consuming_of_bad_first _ ho hc Nat.one_pos hbad]

/-- Settles O38: CLOSE is an equation of the model, and the state it answers is closed, consumed and without error, so a
second CLOSE writes what is there and the session commands raise StateError; its word is the Z-form word of its opcode. -/
theorem closeResult : Obligations.CloseResult := by
  refine ⟨exec_closeSession, fun s t ht => ?_, by decide,
    fun c hop => zForm_word_accepted_iff (o := .closeSession) rfl hop⟩
  cases ht
  refine ⟨rfl, fun i hi => exec_sessionCommand_of_closed rfl ?_⟩
  obtain h | h | h | h | h := hi
  exacts [.inl h, .inr (.inl h), .inr (.inr ⟨_, h, by decide⟩), .inr (.inr ⟨_, h, by decide⟩),
    .inr (.inr ⟨_, h, by decide⟩)]

/-- Settles O41: OPEN fails in an open session and the session commands in a closed one; a command that reports
StateError is one that needs the other value of EN; PUSH keeps ERR. -/
theorem sessionNeeds : Obligations.SessionNeeds := by
  refine ⟨fun s => exec_openSession_of_open, fun i s hi hen => exec_sessionCommand_of_closed hen hi,
    fun i s t hneed hi h hcode => ?_, fun b s t h => ?_⟩
  · rw [neededSession_of_stateError hi h hcode] at hneed
    simp at hneed
  · cases h
    exact pushByte_err s b

/-- Settles O40: NOP is an equation of the model, and its word is the Z-form word of its opcode. -/
theorem nopResult : Obligations.NopResult :=
  ⟨exec_nop, by decide, fun _ hop => zForm_word_accepted_iff (o := .nop) rfl hop, rfl⟩

end

section
/-! PROOFS. Exceptions (60_exceptions.md): ERR as the first check that fails, and what a failed command does. -/

namespace Sys2Proof

/-! ### What the decoder accepts at CMD -/

theorem decodeZ_eq_instr {i j : Instr} {c : Word} (h : decodeZ i c = .instr j) : i = j := by
  unfold decodeZ at h
  split at h
  · exact Decoded.instr.inj h
  · cases h

/-- An accepted command word is an instruction of CMD whose operands its form admits, so no ILLEGAL check is left to
`exec` (R85, R86). -/
theorem port_and_wellFormed_of_decode_cmd {c : Word} {i : Instr} (h : decode .cmd c = .instr i) :
    i.port = .cmd ∧ i.wellFormed = true := by
  obtain ⟨-, o, -, ho⟩ := decodeCommand_eq_instr h
  cases o with
  | nop | flush | openSession | closeSession | readStatus | readTH =>
    obtain rfl := decodeZ_eq_instr ho
    exact ⟨rfl, rfl⟩
  | crc8 | convT | convH =>
    cases ho
    exact ⟨rfl, rfl⟩
  | validate | setMode =>
    simp only [decodeOperand] at ho
    split_ifs at ho with hunused hok
    cases ho
    exact ⟨rfl, hok⟩

end Sys2Proof

namespace Sys2Proof.Machine

/-! ### ERR after each check, in the order of R222 -/

section
variable {s t : State} {i : Instr}

theorem reportedErr_of_stateError (hsession : neededSession i = some (!s.en)) : reportedErr i s = errCode 2#4 :=
  if_pos hsession

theorem reportedErr_of_noFrame (hsession : neededSession i ≠ some (!s.en)) (hbytes : neededBytes i = none) :
    reportedErr i s = errCode 0#4 := by
  simp [reportedErr, hsession, hbytes]

/-- A consuming command leaves in ERR the error of its frame, if any (R122, R127). -/
theorem consuming_err (need n : Nat) (commit : State → State) :
    (consuming need n commit s).err = (frameError need n s).elim .none .ofError := by
  obtain ⟨hframe, h⟩ | ⟨e, hframe, h⟩ := consuming_cases s need n commit <;> simp [hframe, h]

/-- Past the session check a command of one group reports the first failure of its frame. -/
theorem consuming_one_err (commit : State → State) (hsession : neededSession i ≠ some (!s.en))
    (hbytes : neededBytes i = some 3) : (consuming 3 1 commit s).err = reportedErr i s := by
  rw [consuming_err, frameError_one]
  simp only [reportedErr, hsession, hbytes, Nat.reduceEqDiff, false_and, if_false]
  split_ifs <;> rfl

/-- Past the session check a command of two groups reports the first failure of its frame. -/
theorem consuming_two_err (commit : State → State) (hsession : neededSession i ≠ some (!s.en))
    (hbytes : neededBytes i = some 6) : (consuming 6 2 commit s).err = reportedErr i s := by
  rw [consuming_err, frameError_two]
  simp only [reportedErr, hsession, hbytes, if_false, true_and]
  split_ifs <;> rfl

/-- A command with legal operands leaves in ERR what R222 names. -/
theorem exec_err (hi : i.port = .cmd) (hwf : i.wellFormed = true) (h : exec i s = .next t) :
    t.err = reportedErr i s := by
  cases i with
  | push b => cases hi
  | nop | crc8 | convT | convH | flush | closeSession =>
    cases h
    exact (reportedErr_of_noFrame (by simp [neededSession]) rfl).symm
  | validate n =>
    obtain rfl | rfl : n = 1#2 ∨ n = 2#2 := by simpa using (groupCountOk_iff_mem n).1 hwf
    · cases (exec_validate_of_ok (.inl rfl)).symm.trans h
      exact consuming_one_err _ (by simp [neededSession]) rfl
    · cases (exec_validate_of_ok (.inr rfl)).symm.trans h
      exact consuming_two_err _ (by simp [neededSession]) rfl
  | openSession =>
    obtain ⟨hen, h'⟩ | ⟨hen, h'⟩ := exec_openSession_cases s <;> cases h'.symm.trans h
    · exact consuming_one_err _ (by simp [neededSession, hen]) rfl
    · exact (reportedErr_of_stateError (by simp [neededSession, hen])).symm
  | setMode m =>
    obtain ⟨mode, -, hen, h'⟩ | ⟨-, hen, h'⟩ | ⟨hnone, -⟩ := exec_setMode_cases s m
    · cases h'.symm.trans h
      exact (reportedErr_of_noFrame (by simp [neededSession, hen]) rfl).symm
    · cases h'.symm.trans h
      exact (reportedErr_of_stateError (by simp [neededSession, hen])).symm
    · have hsome := (Mode.ofField_isSome_iff m).2 ((modeFieldOk_iff_ne_three m).1 hwf)
      simp [hnone] at hsome
  | readStatus =>
    obtain ⟨hen, h'⟩ | ⟨hen, h'⟩ := exec_readStatus_cases s <;> cases h'.symm.trans h
    · exact consuming_one_err _ (by simp [neededSession, hen]) rfl
    · exact (reportedErr_of_stateError (by simp [neededSession, hen])).symm
  | readTH =>
    obtain ⟨hen, h'⟩ | ⟨hen, h'⟩ := exec_readTH_cases s <;> cases h'.symm.trans h
    · exact consuming_two_err _ (by simp [neededSession, hen]) rfl
    · exact (reportedErr_of_stateError (by simp [neededSession, hen])).symm

end

end Sys2Proof.Machine

open Sys2Proof Sys2Proof.Machine

/-- Settles O42: a word the decoder rejects raises IllegalCommand first of all; an accepted one runs a command with legal
operands, which leaves in ERR what R222 names (`exec_err`). -/
theorem firstFailingCheckIsReported : Obligations.FirstFailingCheckIsReported := by
  intro s t rest c hs ht
  cases hd : decode .cmd c with
  | illegal r =>
    cases (step_instrWrite_of_illegal hd hs).symm.trans ht
    rfl
  | instr i =>
    obtain ⟨hi, hwf⟩ := port_and_wellFormed_of_decode_cmd hd
    have hexec := (step_instrWrite_of_instr hd hs).symm.trans ht
    -- The access changes only `incoming` and `returned`, which no check reads.
    exact (exec_err hi hwf hexec :)

/-- Settles O43: each of the three ends of a command is one of the outcomes listed, and ERR reads as its packed fields. -/
theorem errorsArePrecise : Obligations.ErrorsArePrecise := by
  refine ⟨fun i s t hi ht => ?_, portRead_err⟩
  obtain ⟨t', ht', hout⟩ := exec_commandOutcome s hi
  obtain rfl : t = t' := Host.Outcome.next.inj (ht.symm.trans ht')
  cases hout with
  | succeeds u => exact .inl ⟨rfl, rfl⟩
  | rejected e he =>
    obtain rfl | rfl := he
    · exact .inr (.inr (.inr (.inl rfl)))
    · exact .inr (.inr (.inr (.inr (.inr rfl))))
  | badFrame e he =>
    obtain rfl | ⟨g, rfl⟩ := frameError_eq_some he
    · exact .inr (.inr (.inr (.inr (.inl rfl))))
    · match g with
      | 0 => exact .inr (.inl rfl)
      | 1 => exact .inr (.inr (.inl rfl))

end

section
/-! PROOFS. Reset (70_reset_and_hazards.md): what the reset event does, and the read-only registers it cannot change. -/

namespace Sys2Proof.Machine

/-- The registers of the map that are no state: the descriptor of the status command and the calibration constants (R37,
R38). -/
def constantRegs : List PortReg := [.descStatus, .calTOffset, .calTGain, .calTScale, .calHGain, .calHScale]

/-- What a constant register reads as does not look at the state. -/
theorem readReg_constant (s t : State) : ∀ r ∈ constantRegs, readReg s r = readReg t r := by
  intro r hr
  simp only [constantRegs, List.mem_cons, List.not_mem_nil, or_false] at hr
  obtain rfl | rfl | rfl | rfl | rfl | rfl := hr <;> rfl

theorem portRead_constant (s t : State) : ∀ off ∈ constantRegs.map PortReg.offset, portRead s off = portRead t off := by
  simp only [List.forall_mem_map, portRead_offset]
  exact readReg_constant s t

/-- The reset event as a step: every register as after reset, the host's further events kept (R250; log 6). -/
theorem step_reset {s : State} {rest : List HostEvent} (h : s.incoming = .reset :: rest) :
    step s = .next { State.reset with incoming := rest } :=
  step_of_cons h

/-- After reset each byte of the reply buffer is 0 (R27). -/
theorem reset_buf : ∀ i : Fin 6, State.reset.buf[i] = 0#8 := by decide

end Sys2Proof.Machine

open Sys2Proof Sys2Proof.Machine

/-- Settles O1: the registers by the definition of the reset state, the event by `step_reset`, and the constants because
their reads do not look at the state. -/
theorem resetGivesEveryRegisterItsValue : Obligations.ResetGivesEveryRegisterItsValue := by
  refine ⟨⟨rfl, rfl, rfl, rfl, reset_buf, rfl, rfl, rfl, rfl, rfl, rfl, rfl, rfl⟩, ?event, ?constants⟩
  case event => exact fun _ _ => step_reset
  case constants => exact portRead_constant State.reset

end

section
/-! PROOFS. Every command in one equation (R222, R223): the checks before the frame, the frame, and what a success
writes; and what every instruction keeps for that reason. -/

namespace Sys2Proof.Machine

/-! ### The checks of a command and its commit -/

/-- The error a command raises before it looks at a frame: ILLEGAL, then STATE (R222). -/
def rejection (i : Instr) (s : State) : Option CommandError :=
  if i.wellFormed = false then some .illegal
  else if neededSession i = some (!s.en) then some .state
  else none

/-- The error of the frame a command consumes, if it consumes one (R122, R124, R125). -/
def frameFailure (i : Instr) (s : State) : Option CommandError :=
  (neededBytes i).bind fun need => frameError need (need / 3) s

/-- Everything a command that passes its checks writes but ERR. -/
def committed : Instr → State → State
  | .nop, s => s
  | .crc8 hi lo, s => setCrcOut (crc8 hi lo) s
  | .convT r, s => setTemperature r s
  | .convH r, s => setHumidity r s
  | .validate n, s => commitWords n (consume s)
  | .flush, s => consume s
  | .openSession, s => setEn true (setMode .high (setWord0 (rawWord s.buf 0) (consume s)))
  | .closeSession, s => setEn false (consume s)
  | .setMode m, s => (Mode.ofField m).elim s fun mode => setMode mode s
  | .readStatus, s => setWord0 (rawWord s.buf 0) (consume s)
  | .readTH, s => commitReading (consume s)
  | .push _, s => s

/-- What a command leaves: the first check that fails raises its error, after the consume if it is the frame's
(R127). -/
def commandResult (i : Instr) (s : State) : State :=
  match rejection i s, frameFailure i s with
  | some e, _ => raise e s
  | none, some e => raise e (consume s)
  | none, none => succeed (committed i s)

section
variable {i : Instr} {s : State} {e : CommandError}

theorem commandResult_of_rejected (h : rejection i s = some e) : commandResult i s = raise e s := by
  simp [commandResult, h]

theorem commandResult_of_badFrame (hr : rejection i s = none) (hf : frameFailure i s = some e) :
    commandResult i s = raise e (consume s) := by
  simp [commandResult, hr, hf]

theorem commandResult_of_passed (hr : rejection i s = none) (hf : frameFailure i s = none) :
    commandResult i s = succeed (committed i s) := by
  simp [commandResult, hr, hf]

theorem rejection_of_illFormed (h : i.wellFormed = false) : rejection i s = some .illegal := by
  simp [rejection, h]

theorem rejection_of_wrongSession (hwf : i.wellFormed = true) (h : neededSession i = some (!s.en)) :
    rejection i s = some .state := by
  simp [rejection, hwf, h]

theorem rejection_eq_none (hwf : i.wellFormed = true) (h : neededSession i ≠ some (!s.en)) : rejection i s = none := by
  simp [rejection, hwf, h]

theorem rejection_eq_some (h : rejection i s = some e) : e = .illegal ∨ e = .state := by
  unfold rejection at h
  split_ifs at h <;> cases h
  exacts [.inl rfl, .inr rfl]

end

/-- A command past its checks that consumes no frame succeeds. -/
theorem commandResult_of_noFrame {i : Instr} {s : State} (hr : rejection i s = none) (hb : neededBytes i = none) :
    commandResult i s = succeed (committed i s) :=
  commandResult_of_passed hr (by simp [frameFailure, hb])

/-- A command past its checks that consumes a frame is R127's consuming command. -/
theorem commandResult_of_frame {i : Instr} {s : State} {need n : Nat} {commit : State → State}
    (hr : rejection i s = none) (hb : neededBytes i = some need) (hn : need / 3 = n)
    (hcommit : committed i s = commit (consume s)) : commandResult i s = consuming need n commit s := by
  have hf : frameFailure i s = frameError need n s := by simp [frameFailure, hb, hn]
  obtain ⟨hnone, h⟩ | ⟨e, hsome, h⟩ := consuming_cases s need n commit
  · rw [h, commandResult_of_passed hr (hf.trans hnone), hcommit]
  · rw [h, commandResult_of_badFrame hr (hf.trans hsome)]

/-- Every command is `commandResult`. -/
theorem exec_command {i : Instr} (hi : i.port = .cmd) (s : State) : exec i s = .next (commandResult i s) := by
  cases i with
  | push b => cases hi
  | nop | crc8 | convT | convH | flush | closeSession =>
    rw [commandResult_of_noFrame (rejection_eq_none rfl (by simp [neededSession])) rfl]
    rfl
  | validate n =>
    obtain ⟨hok, h⟩ | ⟨hbad, h⟩ := exec_validate_cases s n <;> refine h.trans (congrArg _ (Eq.symm ?_))
    · exact commandResult_of_frame (rejection_eq_none hok nofun) rfl (Nat.mul_div_cancel_left _ (by decide)) rfl
    · exact commandResult_of_rejected (rejection_of_illFormed hbad)
  | openSession =>
    obtain ⟨hen, h⟩ | ⟨hen, h⟩ := exec_openSession_cases s <;> refine h.trans (congrArg _ (Eq.symm ?_))
    · exact commandResult_of_frame (rejection_eq_none rfl (by simp [neededSession, hen])) rfl rfl rfl
    · exact commandResult_of_rejected (rejection_of_wrongSession rfl (by simp [neededSession, hen]))
  | setMode m =>
    have hlegal : modeFieldOk m = (Mode.ofField m).isSome := by revert m; decide
    obtain ⟨mode, hm, hen, h⟩ | ⟨hm, hen, h⟩ | ⟨hm, h⟩ := exec_setMode_cases s m <;>
      refine h.trans (congrArg _ (Eq.symm ?_))
    · have hr : rejection (.setMode m) s = none :=
        rejection_eq_none (hlegal.trans (by simp [hm])) (by simp [neededSession, hen])
      simp [commandResult_of_noFrame hr rfl, committed, hm]
    · exact commandResult_of_rejected (rejection_of_wrongSession (hlegal.trans hm) (by simp [neededSession, hen]))
    · exact commandResult_of_rejected (rejection_of_illFormed (hlegal.trans (by simp [hm])))
  | readStatus =>
    obtain ⟨hen, h⟩ | ⟨hen, h⟩ := exec_readStatus_cases s <;> refine h.trans (congrArg _ (Eq.symm ?_))
    · exact commandResult_of_frame (rejection_eq_none rfl (by simp [neededSession, hen])) rfl rfl rfl
    · exact commandResult_of_rejected (rejection_of_wrongSession rfl (by simp [neededSession, hen]))
  | readTH =>
    obtain ⟨hen, h⟩ | ⟨hen, h⟩ := exec_readTH_cases s <;> refine h.trans (congrArg _ (Eq.symm ?_))
    · exact commandResult_of_frame (rejection_eq_none rfl (by simp [neededSession, hen])) rfl rfl rfl
    · exact commandResult_of_rejected (rejection_of_wrongSession rfl (by simp [neededSession, hen]))

/-- Everything an instruction can do: push, be rejected, report a bad frame after the consume, or commit. -/
theorem exec_cases {i : Instr} {s t : State} (h : exec i s = .next t) :
    (∃ b, i = .push b ∧ t = pushByte b s) ∨
    (i.port = .cmd ∧
      ((∃ e, rejection i s = some e ∧ t = raise e s) ∨
       (∃ e, frameFailure i s = some e ∧ t = raise e (consume s)) ∨
       (rejection i s = none ∧ frameFailure i s = none ∧ t = succeed (committed i s)))) := by
  cases hp : i.port with
  | rxdata =>
    cases i with
    | push b => exact .inl ⟨b, rfl, (Host.Outcome.next.inj h).symm⟩
    | _ => cases hp
  | cmd =>
    obtain rfl : commandResult i s = t := Host.Outcome.next.inj ((exec_command hp s).symm.trans h)
    refine .inr ⟨rfl, ?_⟩
    cases hr : rejection i s with
    | some e => exact .inl ⟨e, rfl, commandResult_of_rejected hr⟩
    | none =>
      cases hf : frameFailure i s with
      | some e => exact .inr (.inl ⟨e, rfl, commandResult_of_badFrame hr hf⟩)
      | none => exact .inr (.inr ⟨rfl, rfl, commandResult_of_passed hr hf⟩)

end Sys2Proof.Machine
end

section
/-! PROOFS. What every instruction keeps (10_state.md, 41_pipeline.md): the registers it does not write, and the buffer
it does not consume. -/

namespace Sys2Proof.Machine

/-! ### Which registers each operation can change -/

/-- The registers outside the list hold the same values in both states. -/
def ChangesOnly (regs : List StoredReg) (s t : State) : Prop := ∀ r, r ∉ regs → r.Same s t

theorem StoredReg.Same.trans {r : StoredReg} {s t u : State} (hst : r.Same s t) (htu : r.Same t u) : r.Same s u := by
  cases r <;> exact Eq.trans htu hst

namespace ChangesOnly

variable {l m : List StoredReg} {s t u : State}

theorem refl (s : State) : ChangesOnly [] s s := by
  intro r _
  cases r <;> rfl

theorem trans (hst : ChangesOnly l s t) (htu : ChangesOnly m t u) : ChangesOnly (l ++ m) s u := by
  intro r hr
  rw [List.mem_append, not_or] at hr
  exact (hst r hr.1).trans (htu r hr.2)

theorem mono (hst : ChangesOnly l s t) (hlm : l ⊆ m) : ChangesOnly m s t :=
  fun r hr => hst r (mt (@hlm r) hr)

end ChangesOnly

section
variable (s : State)

theorem raise_changesOnly (e : CommandError) : ChangesOnly [.err] s (raise e s) := by
  intro r hr
  cases r with
  | err => simp at hr
  | _ => rfl

theorem succeed_changesOnly : ChangesOnly [.err] s (succeed s) := by
  intro r hr
  cases r with
  | err => simp at hr
  | _ => rfl

theorem consume_changesOnly : ChangesOnly [.rxcnt, .ovf] s (consume s) := by
  intro r hr
  cases r with
  | rxcnt | ovf => simp at hr
  | _ => rfl

theorem setEn_changesOnly (v : Bool) : ChangesOnly [.en] s (setEn v s) := by
  intro r hr
  cases r with
  | en => simp at hr
  | _ => rfl

theorem setMode_changesOnly (m : Mode) : ChangesOnly [.mode] s (setMode m s) := by
  intro r hr
  cases r with
  | mode => simp at hr
  | _ => rfl

theorem setWord0_changesOnly (w : RawWord) : ChangesOnly [.word0] s (setWord0 w s) := by
  intro r hr
  cases r with
  | word0 => simp at hr
  | _ => rfl

theorem setWord1_changesOnly (w : RawWord) : ChangesOnly [.word1] s (setWord1 w s) := by
  intro r hr
  cases r with
  | word1 => simp at hr
  | _ => rfl

theorem setCrcOut_changesOnly (v : Byte) : ChangesOnly [.crcOut] s (setCrcOut v s) := by
  intro r hr
  cases r with
  | crcOut => simp at hr
  | _ => rfl

theorem setTemperature_changesOnly (w : RawWord) : ChangesOnly [.tNum, .tMilli] s (setTemperature w s) := by
  intro r hr
  cases r with
  | tNum | tMilli => simp at hr
  | _ => rfl

theorem setHumidity_changesOnly (w : RawWord) : ChangesOnly [.hNum, .hMilli] s (setHumidity w s) := by
  intro r hr
  cases r with
  | hNum | hMilli => simp at hr
  | _ => rfl

theorem pushByte_changesOnly (b : Byte) : ChangesOnly [.rxcnt, .ovf, .buf] s (pushByte b s) := by
  intro r hr
  cases r with
  | rxcnt | ovf | buf => simp at hr
  | _ => simp [StoredReg.Same]

/-- The words VALIDATE commits are WORD0 and at most WORD1 (R128). -/
theorem commitWords_changesOnly (n : BitVec 2) : ChangesOnly [.word0, .word1] s (commitWords n s) := by
  unfold commitWords
  split
  · exact ((setWord0_changesOnly s _).trans (setWord1_changesOnly _ _)).mono (by decide)
  · exact (setWord0_changesOnly s _).mono (by decide)

theorem commitReading_changesOnly :
    ChangesOnly [.word0, .word1, .tNum, .tMilli, .hNum, .hMilli] s (commitReading s) :=
  (((setWord0_changesOnly s _).trans (setWord1_changesOnly _ _)).trans (setTemperature_changesOnly _ _)).trans
    (setHumidity_changesOnly _ _)

/-- What a successful command writes beside ERR is in its row of the state table. -/
theorem committed_changesOnly (i : Instr) : ChangesOnly (mayWrite i) s (committed i s) := by
  cases i with
  | nop | push => exact (ChangesOnly.refl s).mono (by simp)
  | crc8 hi lo => exact (setCrcOut_changesOnly s _).mono (by simp [mayWrite])
  | convT r => exact (setTemperature_changesOnly s r).mono (by simp [mayWrite])
  | convH r => exact (setHumidity_changesOnly s r).mono (by simp [mayWrite])
  | validate n => exact ((consume_changesOnly s).trans (commitWords_changesOnly _ n)).mono (by simp [mayWrite])
  | flush => exact (consume_changesOnly s).mono (by decide)
  | openSession =>
    exact ((((consume_changesOnly s).trans (setWord0_changesOnly _ _)).trans (setMode_changesOnly _ _)).trans
      (setEn_changesOnly _ _)).mono (by decide)
  | closeSession => exact ((consume_changesOnly s).trans (setEn_changesOnly _ _)).mono (by decide)
  | setMode m =>
    cases hm : Mode.ofField m with
    | none => simpa [committed, hm] using (ChangesOnly.refl s).mono (by simp)
    | some mode => simpa [committed, hm] using (setMode_changesOnly s mode).mono (by simp [mayWrite])
  | readStatus => exact ((consume_changesOnly s).trans (setWord0_changesOnly _ _)).mono (by decide)
  | readTH => exact ((consume_changesOnly s).trans (commitReading_changesOnly _)).mono (by decide)

end

/-- Every command may write ERR, and a command that consumes a frame RXCNT and OVF. -/
theorem err_mem_mayWrite {i : Instr} (hi : i.port = .cmd) : .err ∈ mayWrite i := by
  cases i with
  | push => cases hi
  | _ => simp [mayWrite]

theorem consume_subset_mayWrite {i : Instr} {need : Nat} (h : neededBytes i = some need) :
    [.rxcnt, .ovf] ⊆ mayWrite i := by
  cases i with
  | validate | openSession | readStatus | readTH => simp [mayWrite]
  | _ => cases h

theorem neededBytes_of_frameFailure {i : Instr} {s : State} {e : CommandError} (h : frameFailure i s = some e) :
    ∃ need, neededBytes i = some need ∧ frameError need (need / 3) s = some e :=
  Option.bind_eq_some_iff.1 h

/-- No instruction changes a register outside its row of the state table (10_state.md §2). -/
theorem exec_changesOnly {i : Instr} {s t : State} (h : exec i s = .next t) : ChangesOnly (mayWrite i) s t := by
  obtain ⟨b, rfl, rfl⟩ | ⟨hi, ⟨e, -, rfl⟩ | ⟨e, hf, rfl⟩ | ⟨-, -, rfl⟩⟩ := exec_cases h
  · exact pushByte_changesOnly s b
  · exact (raise_changesOnly s e).mono (by simpa using err_mem_mayWrite hi)
  · obtain ⟨need, hneed, -⟩ := neededBytes_of_frameFailure hf
    exact ((consume_changesOnly s).trans (raise_changesOnly _ e)).mono
      (List.append_subset.2 ⟨consume_subset_mayWrite hneed, by simpa using err_mem_mayWrite hi⟩)
  · exact ((committed_changesOnly s i).trans (succeed_changesOnly _)).mono
      (List.append_subset.2 ⟨List.Subset.refl _, by simpa using err_mem_mayWrite hi⟩)

/-! ### The consume (R127) -/

/-- A command that consumes a frame commits on the consumed buffer. -/
theorem committed_consumed {i : Instr} {need : Nat} (h : neededBytes i = some need) (s : State) :
    (committed i s).rxcnt = 0#3 ∧ (committed i s).ovf = false := by
  cases i with
  | validate n =>
    have hwords := commitWords_changesOnly (consume s) n
    exact ⟨hwords .rxcnt (by decide), hwords .ovf (by decide)⟩
  | openSession | readStatus | readTH => exact ⟨rfl, rfl⟩
  | _ => cases h

/-- The codes of the errors that come before the frame are STATE and ILLEGAL, and no frame's error has one of them. -/
theorem code_of_rejection {i : Instr} {s : State} {e : CommandError} (h : rejection i s = some e) :
    (ErrRecord.ofError e).code = 2#4 ∨ (ErrRecord.ofError e).code = 4#4 := by
  obtain rfl | rfl := rejection_eq_some h
  exacts [.inr rfl, .inl rfl]

theorem code_of_frameFailure {i : Instr} {s : State} {e : CommandError} (h : frameFailure i s = some e) :
    ¬ ((ErrRecord.ofError e).code = 2#4 ∨ (ErrRecord.ofError e).code = 4#4) := by
  obtain ⟨need, -, he⟩ := neededBytes_of_frameFailure h
  obtain rfl | ⟨g, rfl⟩ := frameError_eq_some he <;> simp [ErrRecord.ofError]

theorem rxcnt_ovf_not_mem_mayWrite {i : Instr} (hi : i.port = .cmd) (hb : neededBytes i = none) (hflush : i ≠ .flush)
    (hclose : i ≠ .closeSession) : .rxcnt ∉ mayWrite i ∧ .ovf ∉ mayWrite i := by
  cases i with
  | nop | crc8 | convT | convH | setMode => simp [mayWrite]
  | flush => exact absurd rfl hflush
  | closeSession => exact absurd rfl hclose
  | validate | openSession | readStatus | readTH => cases hb
  | push => cases hi

theorem buf_not_mem_mayWrite {i : Instr} (hi : i.port = .cmd) : .buf ∉ mayWrite i := by
  cases i with
  | push => cases hi
  | _ => simp [mayWrite]

end Sys2Proof.Machine

open Sys2Proof Sys2Proof.Machine

/-- Settles O46: each operation changes only the registers it names, and those of a command are in its row of the
table. -/
theorem registersHaveOnlyTheirWriters : Obligations.RegistersHaveOnlyTheirWriters :=
  fun _ _ _ h => exec_changesOnly h

/-- Settles O45: a rejected command only raises, a bad frame is consumed first, and a success has committed on the
consumed buffer; BUF is in no command's row of the state table. -/
theorem everyReplyIsUsedAtMostOnce : Obligations.EveryReplyIsUsedAtMostOnce := by
  intro i s t hi h
  have hkept := exec_changesOnly h
  refine ⟨hkept .buf (buf_not_mem_mayWrite hi), ?consumed, ?untouched⟩
  case consumed =>
    rintro ⟨⟨need, hneed⟩, hstate, hillegal⟩
    obtain ⟨b, rfl, -⟩ | ⟨-, ⟨e, hr, rfl⟩ | ⟨e, -, rfl⟩ | ⟨-, -, rfl⟩⟩ := exec_cases h
    · cases hi
    · exact absurd (code_of_rejection hr) (not_or.2 ⟨hstate, hillegal⟩)
    · exact ⟨rfl, rfl⟩
    · exact committed_consumed hneed s
  case untouched =>
    rintro (⟨hnone, hflush, hclose⟩ | hcode)
    · obtain ⟨hrxcnt, hovf⟩ := rxcnt_ovf_not_mem_mayWrite hi hnone hflush hclose
      exact ⟨hkept .rxcnt hrxcnt, hkept .ovf hovf⟩
    · obtain ⟨b, rfl, -⟩ | ⟨-, ⟨e, -, rfl⟩ | ⟨e, hf, rfl⟩ | ⟨-, -, rfl⟩⟩ := exec_cases h
      · cases hi
      · exact ⟨rfl, rfl⟩
      · exact absurd hcode (code_of_frameFailure hf)
      · exact absurd hcode (by decide : ¬ (ErrRecord.none.code = 2#4 ∨ ErrRecord.none.code = 4#4))

end

section
/-! PROOFS. The encoding (30_encoding.md): decode and encode as inverses, the rows of the opcode table, and the words of
the host's assembly. -/

namespace Sys2Proof

/-! ### Decode and encode -/

/-- The word of a Z-form instruction decodes to it. -/
theorem decodeZ_commandWord (i : Instr) (o : Opcode) : decodeZ i (commandWord o 0#16) = .instr i := by
  simp [decodeZ]

theorem decode_encode_command {i : Instr} (hport : i.port = .cmd) (hwf : i.wellFormed = true) :
    decodeCommand (encode i) = .instr i := by
  cases i with
  | nop | flush | openSession | closeSession | readStatus | readTH =>
    exact (decodeCommand_commandWord _ _).trans (decodeZ_commandWord _ _)
  | crc8 hi lo => exact Machine.decode_encode_crc8 hi lo
  | convT r => exact decode_encode_convT r
  | convH r => exact decode_encode_convH r
  | validate n => exact decode_encode_validate hwf
  | setMode m => exact decode_encode_setMode hwf
  | push b => cases hport

theorem decode_encode_push (b : Byte) : decodePush (encode (.push b)) = .instr (.push b) := by
  rw [decodePush, encode, byte_zext, BitVec.extractLsb'_append_eq_right]

/-! ### Encode of what was decoded -/

/-- IMM16 is the two bytes of the B form (R83). -/
theorem immHigh_append_immLow (c : Word) : immHigh c ++ immLow c = immField c :=
  BitVec.extractLsb'_append_extractLsb'_eq_extractLsb' rfl

/-- The instruction an opcode's form reads from a word encodes that opcode and the word's IMM16. -/
theorem encode_of_decodeOperand {o : Opcode} {c : Word} {i : Instr} (h : decodeOperand o c = .instr i) :
    encode i = commandWord o (immField c) := by
  cases o with
  | nop | flush | openSession | closeSession | readStatus | readTH =>
    obtain rfl := decodeZ_eq_instr h
    rw [(decodeZ_accepts_iff _ c).1 ⟨_, h⟩]
    rfl
  | crc8 =>
    cases h
    rw [encode, immHigh_append_immLow]
  | convT | convH =>
    cases h
    rfl
  | validate | setMode =>
    simp only [decodeOperand] at h
    split_ifs at h with hunused hok
    cases h
    rw [encode, immField_eq_pair (not_not.1 hunused)]

theorem encode_of_decode_cmd {c : Word} {i : Instr} (h : decode .cmd c = .instr i) : encode i = c := by
  obtain ⟨hrsv, o, hop, ho⟩ := decodeCommand_eq_instr h
  rw [encode_of_decodeOperand ho]
  exact (eq_commandWord hrsv hop).symm

/-! ### The masks of the opcode table -/

/-- The mask of the B and W forms keeps RSV and OP. -/
theorem commandWord_and_form_mask (o : Opcode) (imm : RawWord) :
    commandWord o imm &&& 0xFF0000FF#32 = 0#8 ++ 0#16 ++ o.byte := by
  have hmask : (0xFF0000FF#32 : Word) = 0xFF#8 ++ 0#16 ++ BitVec.allOnes 8 := by decide
  rw [hmask, commandWord, BitVec.and_append, BitVec.and_append, BitVec.zero_and, BitVec.and_zero, BitVec.and_allOnes]

/-- Two rows overlap only if they agree on the bits both masks keep. -/
theorem rows_disjoint {row row' : Word × Word} (h : row.1 &&& row'.2 ≠ row'.1 &&& row.2) (c : Word) :
    ¬ (c &&& row.2 = row.1 ∧ c &&& row'.2 = row'.1) := by
  rintro ⟨hrow, hrow'⟩
  apply h
  rw [← hrow, ← hrow', BitVec.and_assoc, BitVec.and_assoc, BitVec.and_comm row.2]

end Sys2Proof

namespace Sys2Proof.Machine

/-- The port carries accesses at the offset of every register (R61, R63). -/
theorem PortReg.offset_carried (r : PortReg) : r.offset % 4 = 0 ∧ r.offset < 0x80 := by
  cases r with
  | buf i => simp only [PortReg.offset]; omega
  | _ => decide

end Sys2Proof.Machine

open Sys2Proof Sys2Proof.Machine

/-- Settles O15: a command's word has RSV = 0, its opcode and its operands as IMM16; a push word keeps its byte. -/
theorem decodeOfEncode : Obligations.DecodeOfEncode := by
  intro i hwf
  cases hport : i.port with
  | cmd => exact decode_encode_command hport hwf
  | rxdata =>
    cases i with
    | push b => exact decode_encode_push b
    | _ => cases hport

/-- Settles O16: an accepted word is its opcode and its IMM16, which is what its instruction encodes. -/
theorem encodeOfDecodedCommand : Obligations.EncodeOfDecodedCommand := by
  intro c i h
  obtain ⟨hport, hwf⟩ := port_and_wellFormed_of_decode_cmd h
  exact ⟨hwf, hport, encode_of_decode_cmd h⟩

/-- Settles O17: a legal word is its instruction's encoding (O16), whose bits under the row's mask are the row's; any
two rows differ on a bit both masks keep. -/
theorem opcodeTableRowsAgree : Obligations.OpcodeTableRowsAgree := by
  refine ⟨fun c i h => ?ownRow, List.Pairwise.imp (fun h => rows_disjoint h) (by decide)⟩
  case ownRow =>
    obtain ⟨hport, hwf⟩ := port_and_wellFormed_of_decode_cmd h
    obtain rfl := encode_of_decode_cmd h
    cases i with
    | nop | flush | openSession | closeSession | readStatus | readTH => decide
    | crc8 hi lo =>
      refine ⟨commandWord_and_form_mask .crc8 _, (immHigh_eq _).trans ?_, (immLow_eq _).trans ?_⟩
      · rw [encode, immField_commandWord, append_high]
      · rw [encode, immField_commandWord, append_low]
    | convT r => exact ⟨commandWord_and_form_mask .convT r, immField_commandWord .convT r⟩
    | convH r => exact ⟨commandWord_and_form_mask .convH r, immField_commandWord .convH r⟩
    | validate n => revert n; decide
    | setMode m => revert m; decide
    | push b => cases hport

/-- Settles O18: each word is run through the decoder. -/
theorem sampleWordsDecode : Obligations.SampleWordsDecode := by
  unfold Obligations.SampleWordsDecode
  decide

/-- Settles O60: an `op` line writes the instruction's encoding to its port, and each register stands at its own offset,
which the port carries. -/
theorem assemblyLinesAndPseudoInstructions : Obligations.AssemblyLinesAndPseudoInstructions := by
  have hpush : ∀ b : Byte, (AsmLine.op (.push b)).event = wordWrite 0x00C (0#24 ++ b) :=
    fun b => congrArg (wordWrite 0x00C) (byte_zext b)
  have hpair : ∀ n : BitVec 2, n.setWidth 16 = 0#14 ++ n := by decide
  refine ⟨fun r => ⟨rfl, fun _ => rfl⟩, fun r => ⟨regAt_offset r, PortReg.offset_carried r⟩, hpush, rfl,
    fun hi lo => congrArg (wordWrite 0x004) (encode_crc8 hi lo), fun _ => rfl, fun _ => rfl,
    fun n => congrArg (fun imm => wordWrite 0x004 (commandWord .validate imm)) (hpair n),
    rfl, rfl, rfl, ⟨rfl, rfl, rfl⟩, rfl, rfl, rfl, rfl, rfl, rfl, rfl, fun hi lo => ?_⟩
  simp only [Pseudo.expand, List.map_cons, List.map_nil, hpush]
end

section
/-! PROOFS. The port one event at a time (20_memory.md, 70_reset_and_hazards.md): which events are performed, in which
order, and runs of any length. -/

namespace Sys2Proof.Machine

section
variable {s t : State}

/-! ### Instructions leave the host's side of the port alone -/

@[simp] theorem commitWords_incoming (n : BitVec 2) (s : State) : (commitWords n s).incoming = s.incoming := by
  unfold commitWords
  split <;> rfl

@[simp] theorem commitWords_returned (n : BitVec 2) (s : State) : (commitWords n s).returned = s.returned := by
  unfold commitWords
  split <;> rfl

theorem committed_incoming_returned (i : Instr) (s : State) :
    (committed i s).incoming = s.incoming ∧ (committed i s).returned = s.returned := by
  cases i with
  | validate n => simp [committed]
  | setMode m => simp only [committed]; cases Mode.ofField m <;> exact ⟨rfl, rfl⟩
  | _ => exact ⟨rfl, rfl⟩

/-- No instruction touches the events to come or the word last read (R66). -/
theorem exec_incoming_returned {i : Instr} (h : exec i s = .next t) :
    t.incoming = s.incoming ∧ t.returned = s.returned := by
  obtain ⟨b, -, rfl⟩ | ⟨-, ⟨e, -, rfl⟩ | ⟨e, -, rfl⟩ | ⟨-, -, rfl⟩⟩ := exec_cases h
  · exact ⟨pushByte_incoming s b, pushByte_returned s b⟩
  · exact ⟨rfl, rfl⟩
  · exact ⟨rfl, rfl⟩
  · exact committed_incoming_returned i s

/-! ### What a step does to the block -/

/-- A register word whose writes act is the word of an instruction port (R63, R65). -/
theorem eq_portOffset_of_regAt {off : Nat} {p : InstrPort} (hoff : off % 4 = 0 ∧ off < 0x80)
    (h : (regAt off).bind PortReg.instrPort = some p) : off = portOffset p := by
  have hmap : ∀ k < 32, ∀ p ∈ [InstrPort.cmd, .rxdata],
      (regAt (4 * k)).bind PortReg.instrPort = some p → 4 * k = portOffset p := by decide
  obtain ⟨k, rfl⟩ : ∃ k, off = 4 * k := ⟨off / 4, by omega⟩
  exact hmap k (by omega) p (by cases p <;> simp) h

/-- A step takes the next event, if any, and is quiet for the block (idle, a read, an ignored write), or reset, or the
write of an instruction port. -/
theorem step_effect (h : step s = .next t) :
    (∃ word, t = { s with incoming := s.incoming.tail, returned := word }) ∨
    (∃ rest, s.incoming = .reset :: rest ∧ t = { State.reset with incoming := s.incoming.tail }) ∨
    (∃ p w rest, s.incoming = instrWrite p w :: rest ∧
      writeInstr p w { s with incoming := s.incoming.tail, returned := none } = .next t) := by
  obtain ⟨hs, rfl⟩ | ⟨e, rest, hs, ⟨rfl, rfl⟩ | ⟨off, h4, h80, ⟨-, rfl⟩ | ⟨w, rfl, ⟨-, rfl⟩ | ⟨p, hp, -⟩⟩⟩⟩ :=
    step_cases h
  · exact .inl ⟨t.returned, by rw [hs, List.tail_nil, ← hs]⟩
  · exact .inr (.inl ⟨rest, hs, by rw [hs, List.tail_cons]⟩)
  · exact .inl ⟨_, by rw [hs, List.tail_cons]⟩
  · exact .inl ⟨none, by rw [hs, List.tail_cons]⟩
  · obtain rfl := eq_portOffset_of_regAt ⟨h4, h80⟩ hp
    exact .inr (.inr ⟨p, w, rest, hs, by rw [hs, List.tail_cons, ← step_instrWrite hs, h]⟩)

/-- A write of an instruction port runs a decoded instruction or raises IllegalCommand (R81). -/
theorem writeInstr_effect {p : InstrPort} {w : Word} (h : writeInstr p w s = .next t) :
    (∃ i, decode p w = .instr i ∧ exec i s = .next t) ∨ t = raise .illegal s := by
  obtain ⟨i, hd, hi⟩ | ⟨r, -, hr⟩ := writeInstr_cases s p w
  · exact .inl ⟨i, hd, hi.symm.trans h⟩
  · exact .inr (Host.Outcome.next.inj (h.symm.trans hr))

/-- A step takes exactly the next of the host's events (R66). -/
theorem step_incoming (h : step s = .next t) : t.incoming = s.incoming.tail := by
  obtain ⟨word, rfl⟩ | ⟨rest, -, rfl⟩ | ⟨p, w, rest, -, hw⟩ := step_effect h
  · rfl
  · rfl
  · obtain ⟨i, -, hi⟩ | rfl := writeInstr_effect hw
    · exact (exec_incoming_returned hi).1
    · rfl

/-! ### Who changes EN -/

/-- An instruction that changes EN is an OPEN that opens or a CLOSE that closes (R23). -/
theorem exec_changes_en {i : Instr} (h : exec i s = .next t) (hne : t.en ≠ s.en) :
    (i = .openSession ∧ t.en = true) ∨ (i = .closeSession ∧ t.en = false) := by
  have hmem : .en ∈ mayWrite i := by
    by_contra hnot
    exact hne (exec_changesOnly h .en hnot)
  cases i with
  | openSession =>
    obtain ⟨hclosed, -⟩ | ⟨-, h'⟩ := exec_openSession_cases s
    · exact .inl ⟨rfl, by simpa [hclosed] using hne⟩
    · cases h'.symm.trans h
      exact absurd rfl hne
  | closeSession =>
    cases h
    exact .inr ⟨rfl, rfl⟩
  | _ => simp [mayWrite] at hmem

/-- A word that decodes to a command was written to CMD and is the command's encoding. -/
theorem eq_cmd_and_eq_encode_of_decode {p : InstrPort} {w : Word} {i : Instr} (hport : i.port = .cmd)
    (h : decode p w = .instr i) : p = .cmd ∧ w = encode i := by
  cases p with
  | cmd => exact ⟨rfl, (encode_of_decode_cmd h).symm⟩
  | rxdata =>
    cases h
    cases hport

/-- A step that changes EN opens by the OPEN word, or closes by the CLOSE word or reset (R23, R250). -/
theorem step_changes_en (h : step s = .next t) (hne : t.en ≠ s.en) :
    (t.en = true ∧ ∃ rest, s.incoming = instrWrite .cmd (encode .openSession) :: rest) ∨
    (t.en = false ∧
      ∃ rest, s.incoming = instrWrite .cmd (encode .closeSession) :: rest ∨ s.incoming = .reset :: rest) := by
  obtain ⟨word, rfl⟩ | ⟨rest, hs, rfl⟩ | ⟨p, w, rest, hs, hw⟩ := step_effect h
  · exact absurd rfl hne
  · exact .inr ⟨rfl, rest, .inr hs⟩
  · obtain ⟨i, hd, hi⟩ | rfl := writeInstr_effect hw
    · obtain ⟨rfl, hen⟩ | ⟨rfl, hen⟩ := exec_changes_en hi hne <;>
        obtain ⟨rfl, rfl⟩ := eq_cmd_and_eq_encode_of_decode rfl hd
      · exact .inl ⟨hen, rest, hs⟩
      · exact .inr ⟨hen, rest, .inl hs⟩
    · exact absurd rfl hne

/-! ### Which events are performed -/

theorem perform_of_carried {e : HostEvent} (he : e.Carried) (s : State) : ∃ t, perform e s = .next t := by
  cases e with
  | access a => exact performAccess_next s ((Access.refusal_eq_none_iff a).2 he)
  | reset => exact ⟨_, rfl⟩
  | accessInReset a => exact he.elim

theorem perform_of_not_carried {e : HostEvent} (he : ¬ e.Carried) (s : State) : ∃ r, perform e s = .refused r := by
  cases e with
  | access a =>
    cases hr : a.refusal with
    | some r => exact ⟨r, performAccess_of_refusal s hr⟩
    | none => exact absurd ((Access.refusal_eq_none_iff a).1 hr) he
  | reset => exact absurd trivial he
  | accessInReset a => exact ⟨_, rfl⟩

/-- A step over carried input answers a next state (R225). -/
theorem step_next_of_carriedInput (hs : s.CarriedInput) : ∃ t, step s = .next t := by
  cases hin : s.incoming with
  | nil => exact ⟨s, step_of_nil hin⟩
  | cons e rest =>
    rw [step_of_cons hin]
    exact perform_of_carried (hs e (by simp [hin])) _

/-- Carried input stays carried. -/
theorem carriedInput_of_step (hs : s.CarriedInput) (h : step s = .next t) : t.CarriedInput := by
  intro e he
  rw [step_incoming h] at he
  exact hs e (List.mem_of_mem_tail he)

/-! ### Runs -/

theorem run_succ_of_step (k : Nat) (h : step s = .next t) :
    Host.Core.run Sys2Proof.core (k + 1) s = Host.Core.run Sys2Proof.core k t := by
  have hcore : Sys2Proof.core.step s = .next t := h
  simp only [Host.Core.run, hcore]

/-- What holds at the start and is kept by every step holds after any number of steps. -/
theorem run_keeps {P : State → Prop} (hstep : ∀ s t, P s → step s = .next t → P t) {k : Nat} :
    ∀ {s t : State}, P s → Host.Core.run Sys2Proof.core k s = .next t → P t := by
  induction k with
  | zero =>
    intro s t hs h
    exact Host.Outcome.next.inj h ▸ hs
  | succ k ih =>
    intro s t hs h
    cases hone : step s with
    | next u => exact ih (hstep s u hs hone) ((run_succ_of_step k hone).symm.trans h)
    | fault f => cases f
    | refused r =>
      have hcore : Sys2Proof.core.step s = .refused r := hone
      simp [Host.Core.run, hcore] at h

end

end Sys2Proof.Machine

open Sys2Proof Sys2Proof.Machine

/-- Settles O9: a step over carried input answers a state whose input is the tail, which is carried again. -/
theorem carriedInputRunsForever : Obligations.CarriedInputRunsForever := by
  intro k
  induction k with
  | zero => exact fun s _ => ⟨s, rfl, rfl⟩
  | succ k ih =>
    intro s hs
    obtain ⟨u, hu⟩ := step_next_of_carriedInput hs
    obtain ⟨t, ht, hin⟩ := ih u (carriedInput_of_step hs hu)
    refine ⟨t, (run_succ_of_step k hu).trans ht, ?_⟩
    rw [hin, step_incoming hu, List.drop_tail]

/-- Settles O8: a carried event is performed and any other is refused; an access during reset is refused by name. -/
theorem onlyUncarriedEventsStopAStep : Obligations.OnlyUncarriedEventsStopAStep := by
  refine ⟨fun s => ?progress, fun s a rest hs => step_of_cons hs⟩
  case progress =>
    cases hs : s.incoming with
    | nil => exact .inl ⟨s, step_of_nil hs⟩
    | cons e rest =>
      rw [step_of_cons hs]
      by_cases he : e.Carried
      · exact .inl (perform_of_carried he _)
      · obtain ⟨r, hr⟩ := perform_of_not_carried he { s with incoming := rest }
        exact .inr ⟨e, rest, r, rfl, he, hr⟩

/-- Settles O11: a step leaves the tail of the events, and no instruction touches the host's side of the port. -/
theorem eventsTakenInOrder : Obligations.EventsTakenInOrder := by
  refine ⟨fun s t e rest hs h => ?_, fun i s t h => exec_incoming_returned h⟩
  rw [step_incoming h, hs, List.tail_cons]

/-- Settles O5: a carried read is a step that only takes the event and returns the word. -/
theorem readReturnsWordAndChangesNothing : Obligations.ReadReturnsWordAndChangesNothing :=
  fun _ _ _ h4 h80 hs => step_wordRead ⟨h4, h80⟩ hs

/-- Settles O10: the two offsets are those of the instruction ports. -/
theorem stepRunsDecodedInstruction : Obligations.StepRunsDecodedInstruction := by
  intro s rest p w i hs hd
  cases p with
  | cmd | rxdata => exact step_instrWrite_of_instr hd hs

/-- Settles O47: only OPEN and CLOSE may write EN (O46), an open session makes OPEN a StateError and CLOSE closes, and
each has one word (O16); reset closes. -/
theorem onlyOpenAndCloseChangeEn : Obligations.OnlyOpenAndCloseChangeEn := by
  intro s t h
  constructor <;> intro hbefore hafter
  · obtain ⟨-, hopen⟩ | ⟨hfalse, -⟩ := step_changes_en h (by simp [hbefore, hafter])
    · exact hopen
    · simp [hfalse] at hafter
  · obtain ⟨htrue, -⟩ | ⟨-, hclose⟩ := step_changes_en h (by simp [hbefore, hafter])
    · simp [htrue] at hafter
    · exact hclose

end

section
/-! PROOFS. The scaler as arithmetic (43_conversion.md): the milli-unit values are nearest integers, never clamped, and
equal to the source's formulas in binary64. -/

namespace Sys2Proof.Machine

variable (r : RawWord)

/-! ### Nearest integers (R181, R183) -/

/-- The distance to 1000 times the physical value is a multiple of 5 over 65535, so it stays 5/65535 below a half. -/
theorem tmilli_nearest : |65535 * tmilli r - 1000 * tnum r| ≤ 32765 := by
  unfold tmilli tnum
  rw [abs_le]
  omega

theorem hmilli_nearest : |65535 * hmilli r - 1000 * hnum r| ≤ 32765 := by
  unfold hmilli hnum
  rw [abs_le]
  omega

/-- An even number is at least 1 from an odd one: no raw word converts to a half-way point. -/
theorem one_le_dist_halfway (m k : Int) : 1 ≤ |2 * m - (2 * k + 1) * 13107| :=
  Int.one_le_abs (by omega)

/-- No raw word is exactly 0 °C. -/
theorem tnum_ne_zero : tnum r ≠ 0 := by
  unfold tnum
  omega

/-! ### Order (R187) -/

section
variable {a b : RawWord} (h : a.toNat < b.toNat)
include h

theorem tnum_strictMono : tnum a < tnum b := by
  unfold tnum
  omega

theorem hnum_strictMono : hnum a < hnum b := by
  unfold hnum
  omega

theorem tmilli_mono : tmilli a ≤ tmilli b := by
  unfold tmilli
  omega

theorem hmilli_mono : hmilli a ≤ hmilli b := by
  unfold hmilli
  omega

end

/-! ### No clamp (R186) -/

/-- The raw words whose temperature lies in the sensor's documented range. -/
theorem tmilli_in_range_iff : (-40000 ≤ tmilli r ∧ tmilli r ≤ 125000) ↔ 0x0751 ≤ r.toNat ∧ r.toNat ≤ 0xF8AE := by
  unfold tmilli
  omega

theorem tmilli_below_range (h : r.toNat ≤ 0x0750) : tmilli r ≤ -40001 := by
  unfold tmilli
  omega

theorem tmilli_above_range (h : 0xF8AF ≤ r.toNat) : 125001 ≤ tmilli r := by
  unfold tmilli
  omega

end Sys2Proof.Machine

namespace Sys2Proof.Machine.Binary64

/-! ### The two formulas of R188 in binary64 -/

/-- Multiplying by 1000 is exact up to the rounding of the product. -/
theorem thousand_mul_err {x : Binary64} (hx : x.scaled = 0 ∨ 2 ^ 99 ≤ |x.scaled|) :
    |(mul (ofInt 1000) x).scaled - 1000 * x.scaled| * 2 ^ 53 ≤ 1000 * |x.scaled| := by
  have hk : (ofInt 1000).scaled = 1000 * 2 ^ 116 := by rw [ofInt_eq (by decide)]
  have hr := roundRatio_err ((ofInt 1000).scaled * x.scaled) (d := 2 ^ 232) (by positivity) (by
    rw [hk]
    simp only [Int.abs_eq_natAbs] at hx
    omega)
  rw [hk] at hr
  rw [mul, hk]
  generalize (roundRatio _ _).scaled = z at hr ⊢
  generalize x.scaled = v at hr
  have hz : z * ((2 ^ 232 : Nat) : Int) - 1000 * 2 ^ 116 * v * 2 ^ 116 = (z - 1000 * v) * 2 ^ 232 := by push_cast; ring
  have hv : 1000 * 2 ^ 116 * v = v * (1000 * 2 ^ 116) := by ring
  rw [hz, hv, abs_mul, abs_mul, abs_of_pos (by positivity : (0 : Int) < 2 ^ 232),
    abs_of_pos (by positivity : (0 : Int) < 1000 * 2 ^ 116)] at hr
  omega

/-- A value that close to A / 65535, multiplied by 1000 and rounded to an integer, is within a half of
1000 * A / 65535. -/
theorem toNearest_thousand_mul {x : Binary64} {A : Int} (hA : |A| < 2 ^ 24) (hzero : A = 0 → x.scaled = 0)
    (hx : |x.scaled * 65535 - A * 2 ^ 116| ≤ 2 ^ 89) :
    2 * |65535 * (mul (ofInt 1000) x).toNearest - 1000 * A| ≤ 65535 := by
  simp only [Int.abs_eq_natAbs] at hA hx ⊢
  have hmul := thousand_mul_err (x := x) (by rw [Int.abs_eq_natAbs]; omega)
  have hround := toNearest_err (mul (ofInt 1000) x)
  generalize (mul (ofInt 1000) x).toNearest = n at hround ⊢
  generalize (mul (ofInt 1000) x).scaled = z at hround hmul
  simp only [Int.abs_eq_natAbs] at hmul hround
  omega

/-- The nearest integer is unique where no half-way point is near. -/
theorem eq_of_nearest {m n A : Int} (hm : |65535 * m - 1000 * A| ≤ 32765) (hn : 2 * |65535 * n - 1000 * A| ≤ 65535) :
    m = n := by
  rw [Int.abs_eq_natAbs] at hm hn
  omega

variable (r : RawWord)

/-- The humidity in binary64: one rounded division of exact integers. -/
theorem humidity_err :
    |(div (mul (ofInt 100) (ofInt r.toNat)) (ofInt 65535)).scaled * 65535 - hnum r * 2 ^ 116| ≤ |hnum r| * 2 ^ 63 := by
  have hr := r.isLt
  rw [mul_ofInt (by decide) (by omega) (by omega), ofInt_eq (k := 65535) (by decide)]
  exact div_err (100 * (r.toNat : Int)) (j := 65535) (by decide) (by decide)

/-- The temperature in binary64: the division, then a rounded addition. -/
theorem temperature_err :
    |(add (ofInt (-45)) (div (mul (ofInt 175) (ofInt r.toNat)) (ofInt 65535))).scaled * 65535 - tnum r * 2 ^ 116|
      ≤ 2 ^ 89 := by
  have hr := r.isLt
  rw [mul_ofInt (by decide) (by omega) (by omega), ofInt_eq (k := 65535) (by decide), ofInt_eq (k := -45) (by decide)]
  have hdiv := div_err (175 * (r.toNat : Int)) (j := 65535) (by decide) (by decide)
  generalize div _ _ = q at hdiv ⊢
  have hnonzero : r.toNat ≤ 16851 ∨ 16852 ≤ r.toNat := by omega
  have hadd := roundRatio_err (-45 * 2 ^ 116 + q.scaled) (d := 2 ^ 116) (by positivity) (by
    simp only [Int.abs_eq_natAbs] at hdiv
    omega)
  rw [add]
  dsimp only
  generalize (roundRatio _ _).scaled = x at hadd ⊢
  generalize q.scaled = v at *
  unfold tnum
  simp only [Int.abs_eq_natAbs] at *
  omega

end Sys2Proof.Machine.Binary64

open Sys2Proof Sys2Proof.Machine

/-- Settles O24: each milli-unit value is within 32765/65535 of its target, which no raw word puts half-way between two
integers; `/` is floor division by a positive number. -/
theorem milliUnitsAreNearest : Obligations.MilliUnitsAreNearest := by
  intro r
  have hr := r.isLt
  have ht := tmilli_nearest r
  have hh := hmilli_nearest r
  refine ⟨⟨rfl, rfl⟩, ⟨?_, ?_⟩, by omega, by omega, fun k => ⟨?_, ?_⟩, tnum_range r, hnum_range r, tmilli_range r,
    hmilli_range r, ⟨by omega, by decide⟩, by decide⟩
  · rw [Int.fdiv_eq_ediv_of_nonneg _ (by decide), tmilli]
  · rw [Int.fdiv_eq_ediv_of_nonneg _ (by decide), hmilli]
  · rw [Int.mul_assoc]
    exact one_le_dist_halfway _ k
  · rw [Int.mul_assoc]
    exact one_le_dist_halfway _ k

/-- Settles O25: the endpoints by computation, the order of the four functions by that of their formulas. -/
theorem scalerEndpointsAndMonotone : Obligations.ScalerEndpointsAndMonotone :=
  ⟨by decide, fun _ _ h => ⟨tnum_strictMono h, hnum_strictMono h, tmilli_mono h, hmilli_mono h⟩, by decide⟩

/-- Settles O26: the functions are their formulas, the documented range is met exactly between the two raw words, and
the registers hold the values of CONV_T and CONV_H without wrapping. -/
theorem conversionIsNotClamped : Obligations.ConversionIsNotClamped := by
  refine ⟨fun r => ⟨rfl, rfl, rfl, rfl⟩, tmilli_in_range_iff,
    fun r h => ⟨(tmilli_range r).1, tmilli_below_range r h⟩, fun r h => ⟨tmilli_above_range r h, (tmilli_range r).2⟩,
    by decide, by decide, by decide, by decide, by decide, by decide, fun r s t h => ?_, fun r s t h => ?_⟩
  · cases h
    exact ⟨sext32_tnum_toInt r, sext32_tmilli_toInt r, rfl⟩
  · cases h
    exact ⟨sext32_hnum_toInt r, sext32_hmilli_toInt r, rfl⟩

/-- Settles O27: the rounding errors of the few operations are far smaller than the distance of every raw word's value
to a half-way point (O24), so both roundings choose the same integer. -/
theorem milliUnitsAgreeWithBinary64 : Obligations.MilliUnitsAgreeWithBinary64 := by
  intro r
  have ht := tnum_range r
  have hh := hnum_range r
  constructor
  · refine Binary64.eq_of_nearest (tmilli_nearest r)
      (Binary64.toNearest_thousand_mul (abs_lt.2 (by omega)) (fun h0 => ?_) (Binary64.temperature_err r))
    exact absurd h0 (tnum_ne_zero r)
  · have herr := Binary64.humidity_err r
    refine Binary64.eq_of_nearest (hmilli_nearest r)
      (Binary64.toNearest_thousand_mul (abs_lt.2 (by omega)) (fun h0 => ?_) ?_)
    · simp only [h0, Int.abs_eq_natAbs] at herr
      omega
    · rw [Int.abs_eq_natAbs (hnum r)] at herr
      omega

end

section
/-! PROOFS. The invariants of 10_state.md: R41's legal states and the agreement of the two forms of each converted
value, at reset and kept by every step. -/

namespace Sys2Proof.Machine

/-! ### A predicate kept by the operations is kept by every step -/

/-- Every operation over the registers keeps the predicate, and it does not speak of the host's side of the port. -/
structure KeptByOps (P : State → Prop) : Prop where
  raise : ∀ e s, P s → P (raise e s)
  succeed : ∀ s, P s → P (succeed s)
  consume : ∀ s, P s → P (consume s)
  setEn : ∀ v s, P s → P (setEn v s)
  setMode : ∀ m s, P s → P (setMode m s)
  setWord0 : ∀ w s, P s → P (setWord0 w s)
  setWord1 : ∀ w s, P s → P (setWord1 w s)
  setCrcOut : ∀ v s, P s → P (setCrcOut v s)
  setTemperature : ∀ r s, P s → P (setTemperature r s)
  setHumidity : ∀ r s, P s → P (setHumidity r s)
  pushByte : ∀ b s, P s → P (pushByte b s)
  port : ∀ events word s, P s → P { s with incoming := events, returned := word }

namespace KeptByOps

variable {P : State → Prop} (hP : KeptByOps P) {s t : State}
include hP

theorem committed (i : Instr) (hs : P s) : P (committed i s) := by
  have hc := hP.consume s hs
  cases i with
  | nop | push => exact hs
  | crc8 hi lo => exact hP.setCrcOut _ s hs
  | convT r => exact hP.setTemperature r s hs
  | convH r => exact hP.setHumidity r s hs
  | validate n =>
    simp only [Machine.committed, commitWords]
    split
    · exact hP.setWord1 _ _ (hP.setWord0 _ _ hc)
    · exact hP.setWord0 _ _ hc
  | flush => exact hc
  | openSession => exact hP.setEn _ _ (hP.setMode _ _ (hP.setWord0 _ _ hc))
  | closeSession => exact hP.setEn _ _ hc
  | setMode m =>
    simp only [Machine.committed]
    cases Mode.ofField m with
    | none => exact hs
    | some mode => exact hP.setMode mode s hs
  | readStatus => exact hP.setWord0 _ _ hc
  | readTH => exact hP.setHumidity _ _ (hP.setTemperature _ _ (hP.setWord1 _ _ (hP.setWord0 _ _ hc)))

theorem exec {i : Instr} (hs : P s) (h : exec i s = .next t) : P t := by
  obtain ⟨b, -, rfl⟩ | ⟨-, ⟨e, -, rfl⟩ | ⟨e, -, rfl⟩ | ⟨-, -, rfl⟩⟩ := exec_cases h
  · exact hP.pushByte b s hs
  · exact hP.raise e s hs
  · exact hP.raise e _ (hP.consume s hs)
  · exact hP.succeed _ (hP.committed i hs)

/-- If it holds at reset too, every step keeps it. -/
theorem step (hreset : P State.reset) (hs : P s) (h : step s = .next t) : P t := by
  obtain ⟨word, rfl⟩ | ⟨rest, -, rfl⟩ | ⟨p, w, rest, -, hw⟩ := step_effect h
  · exact hP.port _ word s hs
  · exact hP.port _ none _ hreset
  · have hs' := hP.port s.incoming.tail none s hs
    obtain ⟨i, -, hi⟩ | rfl := writeInstr_effect hw
    · exact hP.exec hs' hi
    · exact hP.raise _ _ hs'

end KeptByOps

/-! ### R41: the legal states -/

theorem reset_legal : State.reset.Legal where
  rxcnt_le := by decide
  ovf_full := by decide
  mode_le := by decide
  code_le := by decide
  info_zero := by decide
  group_le := by decide
  tMilli_range := by decide
  hMilli_range := by decide

theorem mode_bits_le (m : Mode) : m.bits.toNat ≤ 2 := by
  cases m <;> decide

namespace State.Legal

variable {s : State} (hs : s.Legal)
include hs

/-- An error's record is one R41 allows: GROUP, RECV and CALC only with INTEGRITY, and a group of 0 or 1 (R220). -/
theorem raise (e : CommandError) : (raise e s).Legal := by
  cases e with
  | integrity g received computed =>
    exact { hs with
      code_le := by simp [ErrRecord.ofError]
      info_zero := fun h => absurd rfl h
      group_le := by
        have hg := g.isLt
        simp only [raise_err, ErrRecord.ofError, BitVec.toNat_ofNat]
        omega }
  | state | length | illegal =>
    exact { hs with
      code_le := by simp [ErrRecord.ofError]
      info_zero := fun _ => ⟨rfl, rfl, rfl⟩
      group_le := by simp [ErrRecord.ofError] }

theorem pushByte (b : Byte) : (pushByte b s).Legal := by
  have hle := hs.rxcnt_le
  by_cases h : s.rxcnt.toNat < 6
  · have hcount := pushByte_rxcnt_of_lt b h
    rw [pushByte_of_lt b h] at hcount ⊢
    exact { hs with
      rxcnt_le := by rw [hcount]; omega
      ovf_full := fun hovf => absurd (hs.ovf_full hovf) h.ne }
  · rw [pushByte_of_full b h]
    exact { hs with ovf_full := fun _ => Nat.le_antisymm hle (Nat.not_lt.1 h) }

end State.Legal

theorem legal_keptByOps : KeptByOps State.Legal where
  raise e _ hs := hs.raise e
  succeed _ hs := { hs with
    code_le := by simp [ErrRecord.none]
    info_zero := fun _ => ⟨rfl, rfl, rfl⟩
    group_le := by simp [ErrRecord.none] }
  consume _ hs := { hs with rxcnt_le := by simp, ovf_full := nofun }
  setEn _ _ hs := { hs with }
  setMode m _ hs := { hs with mode_le := mode_bits_le m }
  setWord0 _ _ hs := { hs with }
  setWord1 _ _ hs := { hs with }
  setCrcOut _ _ hs := { hs with }
  setTemperature r _ hs := { hs with
    tMilli_range := by
      have hr := tmilli_range r
      rw [setTemperature_tMilli, sext32_tmilli_toInt]
      omega }
  setHumidity r _ hs := { hs with
    hMilli_range := by
      rw [setHumidity_hMilli, sext32_hmilli_toInt]
      exact hmilli_range r }
  pushByte b _ hs := hs.pushByte b
  port _ _ _ hs := { hs with }

/-! ### The two forms of each converted value -/

theorem reset_scaled : State.reset.Scaled where
  tNum_range := by decide
  hNum_range := by decide
  tMilli_nearest := by decide
  hMilli_nearest := by decide

theorem scaled_keptByOps : KeptByOps State.Scaled where
  raise _ _ hs := { hs with }
  succeed _ hs := { hs with }
  consume _ hs := { hs with }
  setEn _ _ hs := { hs with }
  setMode _ _ hs := { hs with }
  setWord0 _ _ hs := { hs with }
  setWord1 _ _ hs := { hs with }
  setCrcOut _ _ hs := { hs with }
  setTemperature r _ hs := { hs with
    tNum_range := by
      rw [setTemperature_tNum, sext32_tnum_toInt]
      exact tnum_range r
    tMilli_nearest := by
      have hr := tmilli_nearest r
      rw [setTemperature_tNum, setTemperature_tMilli, sext32_tnum_toInt, sext32_tmilli_toInt]
      omega }
  setHumidity r _ hs := { hs with
    hNum_range := by
      rw [setHumidity_hNum, sext32_hnum_toInt]
      exact hnum_range r
    hMilli_nearest := by
      have hr := hmilli_nearest r
      rw [setHumidity_hNum, setHumidity_hMilli, sext32_hnum_toInt, sext32_hmilli_toInt]
      omega }
  pushByte b s hs := by
    constructor <;> simp only [pushByte_tNum, pushByte_hNum, pushByte_tMilli, pushByte_hMilli]
    exacts [hs.tNum_range, hs.hNum_range, hs.tMilli_nearest, hs.hMilli_nearest]
  port _ _ _ hs := { hs with }

end Sys2Proof.Machine

open Sys2Proof Sys2Proof.Machine

/-- Settles O54: both invariants by the values of reset. -/
theorem resetMeetsInvariants : Obligations.ResetMeetsInvariants := ⟨reset_legal, reset_scaled⟩

/-- Settles O55: every operation keeps the legal states legal, and reset is legal. -/
theorem everyStepKeepsLegal : Obligations.EveryStepKeepsLegal :=
  fun _ _ hs h => legal_keptByOps.step reset_legal hs h

/-- Settles O56: reset is legal whatever the host presents, and every step keeps that (O55). -/
theorem reachableStatesAreLegal : Obligations.ReachableStatesAreLegal :=
  fun _ events _ h => run_keeps everyStepKeepsLegal (legal_keptByOps.port events none _ reset_legal) h

/-- Settles O57: every operation keeps the two forms in agreement, and reset has them agree. -/
theorem everyStepKeepsScaled : Obligations.EveryStepKeepsScaled :=
  fun _ _ hs h => scaled_keptByOps.step reset_scaled hs h

end

section
/-! PROOFS. What steers nothing (10_state.md, 40_mode.md, 60_exceptions.md): ERR, the stale bytes of BUF, and MODE; and
what the port shows of the registers. -/

namespace Sys2Proof.Machine

/-! ### Two states a command treats alike -/

/-- Where two states fail the same checks, a command relates them as its three ends do. -/
theorem commandResult_rel {R : State → State → Prop} {i : Instr} {s s' : State} (hr : rejection i s' = rejection i s)
    (hf : frameFailure i s' = frameFailure i s) (hraise : ∀ e, R (raise e s) (raise e s'))
    (hbad : ∀ e, R (raise e (consume s)) (raise e (consume s')))
    (hcommit : rejection i s = none → frameFailure i s = none →
      R (succeed (committed i s)) (succeed (committed i s'))) :
    R (commandResult i s) (commandResult i s') := by
  cases hrej : rejection i s with
  | some e =>
    rw [commandResult_of_rejected hrej, commandResult_of_rejected (hr.trans hrej)]
    exact hraise e
  | none =>
    cases hframe : frameFailure i s with
    | some e =>
      rw [commandResult_of_badFrame hrej hframe, commandResult_of_badFrame (hr.trans hrej) (hf.trans hframe)]
      exact hbad e
    | none =>
      rw [commandResult_of_passed hrej hframe, commandResult_of_passed (hr.trans hrej) (hf.trans hframe)]
      exact hcommit hrej hframe

/-! ### ERR -/

theorem commitWords_with_err (n : BitVec 2) (s : State) (e : ErrRecord) :
    commitWords n { s with err := e } = { commitWords n s with err := e } := by
  unfold commitWords
  split <;> rfl

/-- A commit neither reads nor writes ERR. -/
theorem committed_with_err (i : Instr) (s : State) (e : ErrRecord) :
    committed i { s with err := e } = { committed i s with err := e } := by
  cases i with
  | validate n => exact commitWords_with_err n (consume s) e
  | setMode m => simp only [committed]; cases Mode.ofField m <;> rfl
  | _ => rfl

/-- A command overwrites ERR without reading it (R40, R224). -/
theorem commandResult_with_err (i : Instr) (s : State) (e : ErrRecord) :
    commandResult i { s with err := e } = commandResult i s :=
  commandResult_rel (R := fun t t' => t' = t) rfl rfl (fun _ => rfl) (fun _ => rfl) fun _ _ => by
    rw [committed_with_err]
    rfl

theorem pushByte_with_err (b : Byte) (s : State) (e : ErrRecord) :
    pushByte b { s with err := e } = { pushByte b s with err := e } := by
  unfold pushByte
  split <;> rfl

/-! ### MODE -/

theorem commitWords_with_mode (n : BitVec 2) (s : State) (m : Mode) :
    commitWords n { s with mode := m } = { commitWords n s with mode := m } := by
  unfold commitWords
  split <;> rfl

theorem pushByte_with_mode (b : Byte) (s : State) (m : Mode) :
    pushByte b { s with mode := m } = { pushByte b s with mode := m } := by
  unfold pushByte
  split <;> rfl

/-- A commit that does not set MODE neither reads nor writes it. -/
theorem committed_with_mode {i : Instr} (hi : .mode ∉ mayWrite i) (s : State) (m : Mode) :
    committed i { s with mode := m } = { committed i s with mode := m } := by
  cases i with
  | validate n => exact commitWords_with_mode n (consume s) m
  | openSession | setMode => simp [mayWrite] at hi
  | _ => rfl

/-- An instruction that does not set MODE carries it through (R104). -/
theorem exec_with_mode {i : Instr} {s t : State} (hi : .mode ∉ mayWrite i) (h : exec i s = .next t) (m : Mode) :
    exec i { s with mode := m } = .next { t with mode := m } := by
  cases hport : i.port with
  | cmd =>
    obtain rfl : commandResult i s = t := Host.Outcome.next.inj ((exec_command hport s).symm.trans h)
    rw [exec_command hport]
    refine congrArg _ (commandResult_rel (R := fun u u' => u' = { u with mode := m }) rfl rfl (fun _ => rfl)
      (fun _ => rfl) fun _ _ => ?_)
    rw [committed_with_mode hi]
    rfl
  | rxdata =>
    cases i with
    | push b =>
      cases h
      rw [exec_push, pushByte_with_mode]
    | _ => cases hport

/-- A read depends on MODE at STATUS and DESC_TH alone. -/
theorem readReg_with_mode {r : PortReg} (hstatus : r ≠ .status) (hdesc : r ≠ .descTH) (s : State) (m : Mode) :
    readReg { s with mode := m } r = readReg s r := by
  cases r with
  | status => exact absurd rfl hstatus
  | descTH => exact absurd rfl hdesc
  | _ => rfl

/-- A register that the map holds at one word only is found at that word only. -/
theorem word_index_of_regAt {off n : Nat} {r : PortReg} (hmap : ∀ k < 32, (registerMap[k]?).join = some r → k = n)
    (h : regAt off = some r) : off / 4 = n := by
  by_cases hk : off / 4 < 32
  · exact hmap _ hk h
  · have hnone : registerMap[off / 4]? = none := List.getElem?_eq_none (Nat.not_lt.1 hk)
    simp [regAt, hnone] at h

theorem portRead_with_mode {off : Nat} (h0 : off / 4 ≠ 0) (h12 : off / 4 ≠ 12) (s : State) (m : Mode) :
    portRead { s with mode := m } off = portRead s off := by
  cases hreg : regAt off with
  | none => simp [portRead, hreg]
  | some r =>
    have hstatus : r ≠ .status := by
      rintro rfl
      exact h0 (word_index_of_regAt (by decide) hreg)
    have hdesc : r ≠ .descTH := by
      rintro rfl
      exact h12 (word_index_of_regAt (by decide) hreg)
    simp [portRead, hreg, readReg_with_mode hstatus hdesc]

/-! ### The bytes of BUF at and above RXCNT -/

/-- A buffer that holds the pushed bytes of a state (R27). -/
def HoldsPushed (s : State) (buf : ReplyBuffer) : Prop := ∀ k : Fin 6, k.val < s.rxcnt.toNat → buf[k] = s.buf[k]

theorem lt_of_mem_groups {n : Nat} {g : Fin 2} (h : g ∈ groups n) : g.val < n := by
  match n with
  | 0 => simp [groups] at h
  | 1 => simp [groups] at h; simp [h]
  | k + 2 => omega

section
variable {s : State} {buf : ReplyBuffer} (hbuf : HoldsPushed s buf)
include hbuf

theorem groupByte_of_holdsPushed {g : Fin 2} (hg : 3 * g.val + 3 ≤ s.rxcnt.toNat) (k : Fin 3) :
    groupByte buf g k = groupByte s.buf g k :=
  hbuf ⟨3 * g.val + k.val, by omega⟩ (by simp only; omega)

theorem rawWord_of_holdsPushed {g : Fin 2} (hg : 3 * g.val + 3 ≤ s.rxcnt.toNat) : rawWord buf g = rawWord s.buf g := by
  rw [rawWord, rawWord, groupByte_of_holdsPushed hbuf hg, groupByte_of_holdsPushed hbuf hg]

theorem rawWords_of_holdsPushed (h : 6 ≤ s.rxcnt.toNat) :
    rawWord buf 0 = rawWord s.buf 0 ∧ rawWord buf 1 = rawWord s.buf 1 :=
  ⟨rawWord_of_holdsPushed hbuf (h.trans' (by decide)), rawWord_of_holdsPushed hbuf h⟩

theorem firstBadGroup_of_holdsPushed {gs : List (Fin 2)} (hgs : ∀ g ∈ gs, 3 * g.val + 3 ≤ s.rxcnt.toNat) :
    firstBadGroup buf gs = firstBadGroup s.buf gs := by
  induction gs with
  | nil => rfl
  | cons g gs ih =>
    obtain ⟨hg, hrest⟩ := List.forall_mem_cons.1 hgs
    have hcalc : groupCalc buf g = groupCalc s.buf g := by
      simp only [groupCalc, groupByte_of_holdsPushed hbuf hg]
    rw [firstBadGroup, firstBadGroup, hcalc, groupRecv, groupRecv, groupByte_of_holdsPushed hbuf hg, ih hrest]

/-- The frame check reads pushed bytes only: another length is an error before any byte is read (R122). -/
theorem frameError_of_holdsPushed {need n : Nat} (hneed : 3 * n ≤ need) :
    frameError need n { s with buf := buf } = frameError need n s := by
  by_cases hlen : s.ovf = true ∨ s.rxcnt.toNat ≠ need
  · simp [frameError, hlen]
  · obtain ⟨-, hcount⟩ := not_or.1 hlen
    have hgroups : ∀ g ∈ groups n, 3 * g.val + 3 ≤ s.rxcnt.toNat := fun g hg => by
      have := lt_of_mem_groups hg
      omega
    simp only [frameError, hlen, if_false]
    exact firstBadGroup_of_holdsPushed hbuf hgroups

theorem frameFailure_of_holdsPushed (i : Instr) : frameFailure i { s with buf := buf } = frameFailure i s := by
  have hframe : ∀ need, frameError need (need / 3) { s with buf := buf } = frameError need (need / 3) s :=
    fun need => frameError_of_holdsPushed hbuf (Nat.mul_div_le need 3)
  simp only [frameFailure, hframe]

/-- A commit after a good frame reads pushed bytes only, and carries the rest of BUF along. -/
theorem committed_of_holdsPushed {i : Instr} (hwf : i.wellFormed = true)
    (hcount : ∀ need, neededBytes i = some need → s.rxcnt.toNat = need) :
    committed i { s with buf := buf } = { committed i s with buf := buf } := by
  cases i with
  | validate n =>
    have hrxcnt : 3 * n.toNat ≤ s.rxcnt.toNat := (hcount _ rfl).ge
    obtain rfl | rfl : n = 1#2 ∨ n = 2#2 := by simpa using (groupCountOk_iff_mem n).1 hwf
    · have h0 : rawWord buf 0 = rawWord s.buf 0 := rawWord_of_holdsPushed hbuf hrxcnt
      simp [committed, commitWords, consume, setWord0, h0]
    · obtain ⟨h0, h1⟩ := rawWords_of_holdsPushed hbuf hrxcnt
      simp [committed, commitWords, consume, setWord0, setWord1, h0, h1]
  | openSession | readStatus =>
    have h0 : rawWord buf 0 = rawWord s.buf 0 := rawWord_of_holdsPushed hbuf (hcount _ rfl).ge
    simp [committed, consume, setWord0, setMode, setEn, h0]
  | readTH =>
    obtain ⟨h0, h1⟩ := rawWords_of_holdsPushed hbuf (hcount _ rfl).ge
    simp [committed, commitReading, consume, setWord0, setWord1, setTemperature, setHumidity, h0, h1]
  | setMode m => simp only [committed]; cases Mode.ofField m <;> rfl
  | _ => rfl

end

/-- After a good frame RXCNT is what the command needs (R122). -/
theorem rxcnt_eq_of_frameFailure {i : Instr} {s : State} (h : frameFailure i s = none) :
    ∀ need, neededBytes i = some need → s.rxcnt.toNat = need := by
  intro need hneed
  rw [frameFailure, hneed, Option.bind_some] at h
  exact ((frameError_eq_none_iff s _ _).1 h).2.1

/-- A commit keeps RXCNT or empties the buffer, so it counts no new byte (R25). -/
theorem committed_rxcnt_le (i : Instr) (s : State) : (committed i s).rxcnt.toNat ≤ s.rxcnt.toNat := by
  cases i with
  | nop | crc8 | convT | convH | push => exact le_rfl
  | flush | closeSession | openSession | readStatus | readTH => exact Nat.zero_le _
  | validate n => simp [(committed_consumed (i := .validate n) rfl s).1]
  | setMode m => simp only [committed]; cases Mode.ofField m <;> exact le_rfl

/-- A command treats both buffers alike and keeps each. -/
theorem commandResult_of_holdsPushed {i : Instr} (hi : i.port = .cmd) {s : State} {buf : ReplyBuffer}
    (hbuf : HoldsPushed s buf) :
    commandResult i { s with buf := buf } = { commandResult i s with buf := buf } ∧
      HoldsPushed (commandResult i s) buf := by
  refine commandResult_rel (R := fun t u => u = { t with buf := buf } ∧ HoldsPushed t buf) rfl
    (frameFailure_of_holdsPushed hbuf i) (fun e => ⟨rfl, hbuf⟩)
    (fun e => ⟨rfl, fun k hk => absurd hk (Nat.not_lt_zero _)⟩) fun hr hf => ⟨?_, fun k hk => ?_⟩
  · have hwf : i.wellFormed = true := by
      by_contra hill
      simp [rejection_of_illFormed (Bool.not_eq_true _ ▸ hill)] at hr
    rw [committed_of_holdsPushed hbuf hwf (rxcnt_eq_of_frameFailure hf)]
    rfl
  · have hkeep : (committed i s).buf = s.buf := committed_changesOnly s i .buf (buf_not_mem_mayWrite hi)
    rw [succeed_buf, hkeep]
    exact hbuf k (hk.trans_le (committed_rxcnt_le i s))

/-- A push writes its byte at the same index of both buffers, or drops it for both. -/
theorem pushByte_of_holdsPushed (b : Byte) {s : State} {buf : ReplyBuffer} (hbuf : HoldsPushed s buf) :
    pushByte b { s with buf := buf } = { pushByte b s with buf := (pushByte b { s with buf := buf }).buf } ∧
      HoldsPushed (pushByte b s) (pushByte b { s with buf := buf }).buf := by
  by_cases h : s.rxcnt.toNat < 6
  · refine ⟨?_, fun k hk => ?_⟩
    · rw [pushByte_of_lt b h, pushByte_of_lt (s := { s with buf := buf }) b h]
    · rw [pushByte_rxcnt_of_lt b h] at hk
      rw [pushByte_buf_of_lt b h, pushByte_buf_of_lt (s := { s with buf := buf }) b h]
      by_cases hlast : k.val = s.rxcnt.toNat
      · simp only [hlast, if_true]
      · simp only [hlast, if_false]
        exact hbuf k (by omega)
  · rw [pushByte_of_full b h, pushByte_of_full (s := { s with buf := buf }) b h]
    exact ⟨rfl, hbuf⟩

/-! ### Every stored bit is readable (R42) -/

/-- A concatenation shows both its parts. -/
theorem append_injective {v w : Nat} {a a' : BitVec v} {b b' : BitVec w} (h : a ++ b = a' ++ b') : a = a' ∧ b = b' := by
  constructor
  · rw [← BitVec.extractLsb'_append_eq_left (a := a) (b := b), h, BitVec.extractLsb'_append_eq_left]
  · rw [← BitVec.extractLsb'_append_eq_right (a := a) (b := b), h, BitVec.extractLsb'_append_eq_right]

/-- The mode operand of a mode's bits names that mode (R24). -/
theorem Mode.ofField_bits (m : Mode) : Mode.ofField m.bits = some m := by
  cases m <;> rfl

theorem Mode.bits_injective {m m' : Mode} (h : m.bits = m'.bits) : m = m' :=
  Option.some.inj (by rw [← Mode.ofField_bits m, h, Mode.ofField_bits])

/-- STATUS shows OVF, RXCNT, MODE and EN (R35). -/
theorem statusWord_injective {s t : State} (h : statusWord s = statusWord t) :
    s.ovf = t.ovf ∧ s.rxcnt = t.rxcnt ∧ s.mode = t.mode ∧ s.en = t.en := by
  obtain ⟨h, hen⟩ := append_injective h
  obtain ⟨h, hmode⟩ := append_injective h
  obtain ⟨h, -⟩ := append_injective h
  obtain ⟨h, hrxcnt⟩ := append_injective h
  obtain ⟨-, hovf⟩ := append_injective h
  exact ⟨BitVec.ofBool_eq_iff_eq.1 hovf, hrxcnt, Mode.bits_injective hmode, BitVec.ofBool_eq_iff_eq.1 hen⟩

/-- ERR shows its four fields (R34). -/
theorem toWord_injective {e e' : ErrRecord} (h : e.toWord = e'.toWord) : e = e' := by
  obtain ⟨h, hcode⟩ := append_injective h
  obtain ⟨h, hgroup⟩ := append_injective h
  obtain ⟨h, -⟩ := append_injective h
  obtain ⟨h, hreceived⟩ := append_injective h
  obtain ⟨-, hcomputed⟩ := append_injective h
  cases e
  cases e'
  simp_all

theorem byte_zext_injective {a b : Byte} (h : a.setWidth 32 = b.setWidth 32) : a = b := by
  rw [byte_zext, byte_zext] at h
  exact (append_injective h).2

theorem rawWord_zext_injective {a b : RawWord} (h : a.setWidth 32 = b.setWidth 32) : a = b := by
  rw [rawWord_zext, rawWord_zext] at h
  exact (append_injective h).2

/-- States whose named registers all read alike hold the same registers. -/
theorem eq_of_readReg_eq {s t : State} (h : ∀ r, readReg s r = readReg t r) :
    s = { t with incoming := s.incoming, returned := s.returned } := by
  obtain ⟨hovf, hrxcnt, hmode, hen⟩ := statusWord_injective (h .status)
  have herr : s.err = t.err := toWord_injective (h .err)
  have hbuf : s.buf = t.buf := Vector.ext fun i hi => byte_zext_injective (h (.buf ⟨i, hi⟩))
  have hword0 : s.word0 = t.word0 := rawWord_zext_injective (h .word0)
  have hword1 : s.word1 = t.word1 := rawWord_zext_injective (h .word1)
  have hcrcOut : s.crcOut = t.crcOut := byte_zext_injective (h .crcOut)
  have htNum : s.tNum = t.tNum := h .tNum
  have htMilli : s.tMilli = t.tMilli := h .tMilli
  have hhNum : s.hNum = t.hNum := h .hNum
  have hhMilli : s.hMilli = t.hMilli := h .hMilli
  cases s
  simp_all

end Sys2Proof.Machine

open Sys2Proof Sys2Proof.Machine

/-- Settles O48: a command overwrites ERR without reading it, and a push does not touch it. -/
theorem errNeverSteersACommand : Obligations.ErrNeverSteersACommand := by
  intro i s e
  constructor
  · intro hi
    rw [exec_command hi, exec_command hi, commandResult_with_err]
  · intro t hi h
    cases i with
    | push b =>
      cases h
      rw [exec_push, pushByte_with_err]
    | _ => cases hi

/-- Settles O49: the checks and the commit of a command read pushed bytes only, and a push writes at index RXCNT. -/
theorem staleBytesAreNeverRead : Obligations.StaleBytesAreNeverRead := by
  intro i s t buf hbuf h
  obtain ⟨u, hu⟩ := exec_next { s with buf := buf } i
  refine ⟨u, hu, ?_⟩
  cases hi : i.port with
  | cmd =>
    obtain rfl : commandResult i s = t := Host.Outcome.next.inj ((exec_command hi s).symm.trans h)
    obtain rfl := Host.Outcome.next.inj ((exec_command hi _).symm.trans hu)
    obtain ⟨heq, hkeep⟩ := commandResult_of_holdsPushed hi hbuf
    rw [heq]
    exact ⟨rfl, hkeep⟩
  | rxdata =>
    cases i with
    | push b =>
      cases h
      cases hu
      exact pushByte_of_holdsPushed b hbuf
    | _ => cases hi

/-- Settles O50: no check and no commit of these instructions reads MODE, and only STATUS and DESC_TH show it. -/
theorem modeOnlySelectsDescriptor : Obligations.ModeOnlySelectsDescriptor :=
  ⟨fun _ _ _ m hi h => exec_with_mode hi h m, fun s m _ h0 h12 => portRead_with_mode h0 h12 s m⟩

/-- Settles O53: every register is read at one of the 32 words, and its word determines it. -/
theorem everyStoredBitIsReadable : Obligations.EveryStoredBitIsReadable := by
  intro s t h
  refine eq_of_readReg_eq fun r => ?_
  obtain ⟨h4, h80⟩ := r.offset_carried
  have hword := h (r.offset / 4) (by omega)
  rwa [Nat.mul_div_cancel' (Nat.dvd_of_mod_eq_zero h4), portRead_offset, portRead_offset] at hword

/-- Settles O2: each register after reset, read by computation. -/
theorem readsJustAfterReset : Obligations.ReadsJustAfterReset := by
  unfold Obligations.ReadsJustAfterReset
  decide

end

section
/-! PROOFS. The laws of the checksum (42_checksum.md): its table, its algebra, the errors it detects, and the frame
check as CRC8. -/

namespace Sys2Proof.Machine

/-! ### The table (R162) -/

theorem crcTable_getElem? (x : Byte) : crcTable[x.toNat]? = some (crcRounds 8 x) :=
  of_decide_eq_true
    (byte_forall (fun x => decide (crcTable[x.toNat]? = some (crcRounds 8 x))) (by decide +kernel) x)

/-! ### Bijections (R163) -/

/-- An injective function of bytes is a bijection: there are finitely many. -/
theorem byte_bijective {f : Byte → Byte} (hf : Function.Injective f) : Function.Bijective f :=
  have : Finite Byte := Finite.of_injective BitVec.toFin fun _ _ => BitVec.eq_of_toFin_eq
  Finite.injective_iff_bijective.1 hf

theorem crc8_injective_right (a : Byte) : Function.Injective (crc8 a) := by
  intro b b' h
  rw [crc8_affine, crc8_affine, BitVec.xor_right_inj] at h
  exact crcRounds_injective 8 h

theorem crc8_injective_left (b : Byte) : Function.Injective fun a => crc8 a b := by
  intro a a' h
  simp only [crc8_affine, BitVec.xor_left_inj, BitVec.xor_right_inj] at h
  exact crcRounds_injective 8 (crcRounds_injective 8 h)

/-! ### Detected errors (R163 (e)) -/

/-- What flipping the bits of a mask does to the difference of the computed and the received checksum: bits 7 to 0 are
in the first byte of the group, 15 to 8 in the second, 23 to 16 in the received checksum. -/
def syndrome (m : Word) : Byte :=
  crcRounds 8 (crcRounds 8 (m.extractLsb' 0 8)) ^^^ crcRounds 8 (m.extractLsb' 8 8) ^^^ m.extractLsb' 16 8

theorem syndrome_xor (m m' : Word) : syndrome (m ^^^ m') = syndrome m ^^^ syndrome m' := by
  simp only [syndrome, BitVec.extractLsb'_xor, crcRounds_xor]
  ac_rfl

/-- A valid group with some bits flipped passes the check exactly when their syndrome is 0. -/
theorem flipped_passes_iff {d0 d1 c : Byte} (h : crc8 d0 d1 = c) (m : Word) :
    crc8 (d0 ^^^ m.extractLsb' 0 8) (d1 ^^^ m.extractLsb' 8 8) = c ^^^ m.extractLsb' 16 8 ↔ syndrome m = 0#8 := by
  have haffine : crc8 (d0 ^^^ m.extractLsb' 0 8) (d1 ^^^ m.extractLsb' 8 8) =
      c ^^^ (crcRounds 8 (crcRounds 8 (m.extractLsb' 0 8)) ^^^ crcRounds 8 (m.extractLsb' 8 8)) := by
    rw [← h, crc8_affine, crc8_affine]
    simp only [crcRounds_xor]
    ac_rfl
  rw [haffine, BitVec.xor_right_inj, syndrome, BitVec.xor_eq_zero_iff]

/-- The syndrome of one flipped bit. -/
def bitSyndrome (k : Fin 24) : Byte := syndrome (1#32 <<< k.val)

/-- The syndrome of several flipped bits is the XOR of theirs. -/
theorem syndrome_flips (ks : List (Fin 24)) :
    syndrome (ks.foldl (fun m k => m ^^^ (1#32 <<< k.val)) 0#32) = ks.foldl (fun x k => x ^^^ bitSyndrome k) 0#8 := by
  have hflip : ∀ m (k : Fin 24), syndrome m ^^^ bitSyndrome k = syndrome (m ^^^ (1#32 <<< k.val)) :=
    fun m k => (syndrome_xor m _).symm
  have hnone : syndrome 0#32 = 0#8 := by decide +kernel
  rw [← List.foldl_hom (g₂ := fun x k => x ^^^ bitSyndrome k) syndrome hflip, hnone]

/-- The XOR of a byte's bits. -/
def oddParity (x : Byte) : Bool := (List.range 8).foldl (fun p i => p ^^ x.getLsbD i) false

theorem foldl_xor_getLsbD_xor (x y : Byte) (l : List Nat) (p q : Bool) :
    l.foldl (fun p i => p ^^ (x ^^^ y).getLsbD i) (p ^^ q) =
      (l.foldl (fun p i => p ^^ x.getLsbD i) p ^^ l.foldl (fun p i => p ^^ y.getLsbD i) q) := by
  induction l generalizing p q with
  | nil => rfl
  | cons i l ih =>
    have hregroup : ∀ p q a b : Bool, ((p ^^ q) ^^ (a ^^ b)) = ((p ^^ a) ^^ (q ^^ b)) := by decide
    rw [List.foldl_cons, BitVec.getLsbD_xor, hregroup, ih]
    rfl

theorem oddParity_xor (x y : Byte) : oddParity (x ^^^ y) = (oddParity x ^^ oddParity y) :=
  foldl_xor_getLsbD_xor x y (List.range 8) false false

/-- The polynomial has an even number of terms, so one flipped bit makes the parity of the syndrome odd. -/
theorem oddParity_bitSyndrome : ∀ k, oddParity (bitSyndrome k) = true := by decide +kernel

/-- No two bits have the same syndrome. -/
theorem bitSyndrome_injective : ∀ j k, bitSyndrome j = bitSyndrome k → j = k := by decide +kernel

/-- One or three flips leave an odd syndrome and two different flips a nonzero one. -/
theorem bitSyndromes_ne_zero {ks : List (Fin 24)} (hnodup : ks.Nodup) (hne : ks ≠ []) (hlen : ks.length ≤ 3) :
    ks.foldl (fun x k => x ^^^ bitSyndrome k) 0#8 ≠ 0#8 := by
  intro h
  have hzero : oddParity 0#8 = false := by decide
  match ks with
  | [] => exact hne rfl
  | [j] =>
    have := congrArg oddParity h
    simp [oddParity_bitSyndrome, hzero] at this
  | [j, k] =>
    have hjk : bitSyndrome j = bitSyndrome k := by simpa using h
    simp [bitSyndrome_injective j k hjk] at hnodup
  | [j, k, l] =>
    have := congrArg oddParity h
    simp [oddParity_xor, oddParity_bitSyndrome, hzero] at this
  | _ :: _ :: _ :: _ :: _ => simp at hlen; omega

end Sys2Proof.Machine

open Sys2Proof Sys2Proof.Machine

/-- Settles O20: each byte's entry is its eight rounds, and the checksum is two of them. -/
theorem crcIsItsTable : Obligations.CrcIsItsTable := by
  refine ⟨crcTable_getElem?, fun a b => ?_⟩
  rw [crcTable_getElem?, Option.bind_some, crcTable_getElem?]
  rfl

/-- Settles O21: T is linear and injective, the checksum is affine in T, and swapped bytes agree at the fixed points
of T. -/
theorem crcAlgebraicLaws : Obligations.CrcAlgebraicLaws := by
  refine ⟨crcRounds_xor 8, byte_bijective (crcRounds_injective 8), crcRounds_eight_fixed_iff, crc8_affine,
    fun a => byte_bijective (crc8_injective_right a), fun b => byte_bijective (crc8_injective_left b),
    fun a b hne => ?_⟩
  rw [crc8_swap_iff_fixed, crcRounds_eight_fixed_iff]
  exact or_iff_right (mt BitVec.xor_eq_zero_iff.1 hne)

/-- Settles O22: a flip passes exactly when its syndrome is 0, which up to three flips never have; the four bits of the
polynomial have it. -/
theorem crcDetectsUpToThreeBitErrors : Obligations.CrcDetectsUpToThreeBitErrors := by
  constructor
  · intro d0 d1 c ks h hnodup hne hlen hpasses
    have hsyndrome := (flipped_passes_iff h _).1 hpasses
    rw [syndrome_flips] at hsyndrome
    exact bitSyndromes_ne_zero hnodup hne hlen hsyndrome
  · refine ⟨[8, 16, 20, 21], by decide, rfl, fun d0 d1 c h => (flipped_passes_iff h _).2 ?_⟩
    rw [syndrome_flips]
    decide +kernel

/-- Settles O23: with exactly one group pushed VALIDATE 1 succeeds or reports INTEGRITY, by the comparison of the same
checksum that CRC8 leaves. -/
theorem frameCheckIsCrc8 : Obligations.FrameCheckIsCrc8 := by
  intro s t u hrxcnt hovf ht hu
  have hcount : s.rxcnt.toNat = 3 := by rw [hrxcnt]; rfl
  obtain ⟨hgood, -, -, hbad, -⟩ := validateResult
  cases hu
  by_cases h : crc8 s.buf[0] s.buf[1] = s.buf[2]
  · cases (hgood s hovf hcount h).symm.trans ht
    exact iff_of_true rfl h
  · cases (hbad 1#2 s (.inl rfl) hovf hcount h).symm.trans ht
    exact iff_of_false (by simp [errIntegrity]) h

end

section
/-! PROOFS. Sequences at the port (41_pipeline.md, 70_reset_and_hazards.md): pushes one after another, a whole reply
read and converted, and the boot sequence. -/

namespace Sys2Proof.Machine

/-! ### Pushes one after another (R25, R26, R120) -/

/-- `t` is `s` with the buffer filled by the bytes: the first six in order, their number, and OVF where there were
more. -/
structure FilledBy (bs : List Byte) (s t : State) : Prop where
  frame : t = { s with buf := t.buf, rxcnt := t.rxcnt, ovf := t.ovf }
  rxcnt : t.rxcnt.toNat = min bs.length 6
  ovf : t.ovf = decide (6 < bs.length)
  buf : ∀ i : Fin 6, t.buf[i] = bs.getD i.val s.buf[i]

theorem getD_concat (bs : List Byte) (b : Byte) (i : Nat) (d : Byte) :
    (bs ++ [b]).getD i d = if i = bs.length then b else bs.getD i d := by
  obtain h | rfl | h := Nat.lt_trichotomy i bs.length
  · rw [List.getD_append _ _ _ _ h, if_neg h.ne]
  · rw [List.getD_append_right _ _ _ _ le_rfl, Nat.sub_self, if_pos rfl]
    rfl
  · rw [if_neg h.ne', List.getD_eq_default _ _ (by simpa using h), List.getD_eq_default _ _ h.le]

/-- A push writes BUF, RXCNT and OVF alone (R120). -/
theorem pushByte_frame (b : Byte) (s : State) :
    pushByte b s = { s with buf := (pushByte b s).buf, rxcnt := (pushByte b s).rxcnt, ovf := (pushByte b s).ovf } := by
  unfold pushByte
  split <;> rfl

namespace FilledBy

variable {bs : List Byte} {s t : State}

theorem nil (hrxcnt : s.rxcnt = 0#3) (hovf : s.ovf = false) : FilledBy [] s s where
  frame := rfl
  rxcnt := by simp [hrxcnt]
  ovf := by simp [hovf]
  buf _ := rfl

theorem en (h : FilledBy bs s t) : t.en = s.en := by rw [h.frame]

theorem mode (h : FilledBy bs s t) : t.mode = s.mode := by rw [h.frame]

theorem word0 (h : FilledBy bs s t) : t.word0 = s.word0 := by rw [h.frame]

theorem crcOut (h : FilledBy bs s t) : t.crcOut = s.crcOut := by rw [h.frame]

/-- What fills the buffer does not touch the host's side of the port. -/
theorem port (h : FilledBy bs s t) (events : List HostEvent) (word : Option Word) :
    FilledBy bs { s with incoming := events, returned := word } { t with incoming := events, returned := word } where
  frame := congrArg (fun u : State => { u with incoming := events, returned := word }) h.frame
  rxcnt := h.rxcnt
  ovf := h.ovf
  buf := h.buf

theorem push (h : FilledBy bs s t) (b : Byte) : FilledBy (bs ++ [b]) s (pushByte b t) where
  frame := (pushByte_frame b t).trans (congrArg (fun u : State => { u with
    buf := (pushByte b t).buf, rxcnt := (pushByte b t).rxcnt, ovf := (pushByte b t).ovf }) h.frame)
  rxcnt := by
    have hcount := h.rxcnt
    rw [List.length_append, List.length_singleton]
    by_cases hlt : t.rxcnt.toNat < 6
    · rw [pushByte_rxcnt_of_lt b hlt]
      omega
    · rw [pushByte_of_full b hlt]
      show t.rxcnt.toNat = _
      omega
  ovf := by
    have hcount := h.rxcnt
    rw [List.length_append, List.length_singleton]
    by_cases hlt : t.rxcnt.toNat < 6
    · rw [pushByte_of_lt b hlt]
      exact h.ovf.trans (decide_eq_decide.2 (by omega))
    · rw [pushByte_of_full b hlt]
      exact (decide_eq_true (by omega)).symm
  buf i := by
    have hcount := h.rxcnt
    by_cases hlt : t.rxcnt.toNat < 6
    · rw [pushByte_buf_of_lt b hlt, h.buf, getD_concat, show t.rxcnt.toNat = bs.length by omega]
    · rw [pushByte_of_full b hlt, getD_concat, if_neg (by omega)]
      exact h.buf i

end FilledBy

/-- Pushes from an emptied buffer fill it. -/
theorem execAll_pushes (bs : List Byte) {s : State} (hrxcnt : s.rxcnt = 0#3) (hovf : s.ovf = false) :
    ∃ t, execAll (bs.map .push) s = .next t ∧ FilledBy bs s t := by
  induction bs using List.reverseRecOn with
  | nil => exact ⟨s, rfl, .nil hrxcnt hovf⟩
  | append_singleton bs b ih =>
    obtain ⟨t, ht, hfill⟩ := ih
    refine ⟨pushByte b t, ?_, hfill.push b⟩
    rw [List.map_append]
    exact execAll_append _ _ ht

/-! ### The host's lines as steps -/

/-- An `op` line runs its instruction (R89). -/
theorem step_op {i : Instr} (hwf : i.wellFormed = true) {s : State} {rest : List HostEvent}
    (hs : s.incoming = (AsmLine.op i).event :: rest) :
    step s = exec i { s with incoming := rest, returned := none } :=
  step_instrWrite_of_instr (decodeOfEncode i hwf) hs

/-- A `rd` line returns the register (R89). -/
theorem step_rd {r : PortReg} {s : State} {rest : List HostEvent} (hs : s.incoming = (AsmLine.rd r).event :: rest) :
    step s = .next { s with incoming := rest, returned := some (readReg s r) } := by
  rw [step_wordRead r.offset_carried hs, portRead_offset]

theorem errCode_zero_toWord : (errCode 0#4).toWord = 0#32 := by decide

/-- The word ERR reads as after an IntegrityError of group 0 (R34, R220). -/
theorem errIntegrity_toWord (received computed : Byte) :
    (errIntegrity 0#2 received computed).toWord = 0#8 ++ computed ++ received ++ 0x01#8 := by
  have hlow : (0x01#8 : Byte) = 0#2 ++ 0#2 ++ 1#4 := by decide
  rw [hlow]
  exact (congrArg (· ++ 1#4) BitVec.append_assoc).trans BitVec.append_assoc

/-- An `op` line and then a `rd` line: the instruction runs, and the register it leaves is returned. -/
theorem run_op_rd {i : Instr} (hwf : i.wellFormed = true) {r : PortReg} {s t : State} {rest : List HostEvent}
    (hs : s.incoming = (AsmLine.op i).event :: (AsmLine.rd r).event :: rest)
    (ht : exec i { s with incoming := (AsmLine.rd r).event :: rest, returned := none } = .next t) :
    Host.Core.run Sys2Proof.core 2 s = .next { t with incoming := rest, returned := some (readReg t r) } :=
  (run_succ_of_step 1 ((step_op hwf hs).trans ht)).trans
    (run_succ_of_step 0 (step_rd (exec_incoming_returned ht).1))

/-- A run over pushes from an emptied buffer fills it, and goes on from there. -/
theorem run_pushes (bs : List Byte) {rest : List HostEvent} {s : State} (hrxcnt : s.rxcnt = 0#3) (hovf : s.ovf = false)
    (hs : s.incoming = bs.map (fun b => (AsmLine.op (.push b)).event) ++ rest) :
    ∃ t, (∀ k, Host.Core.run Sys2Proof.core (bs.length + k) s = Host.Core.run Sys2Proof.core k t) ∧
      t.incoming = rest ∧ FilledBy bs { s with incoming := rest, returned := t.returned } t := by
  induction bs using List.reverseRecOn generalizing rest with
  | nil =>
    obtain rfl : s.incoming = rest := hs
    exact ⟨s, fun k => by rw [List.length_nil, Nat.zero_add], rfl, .nil hrxcnt hovf⟩
  | append_singleton bs b ih =>
    rw [List.map_append, List.append_assoc] at hs
    obtain ⟨t, hrun, hin, hfill⟩ := ih hs
    refine ⟨pushByte b { t with incoming := rest, returned := none }, fun k => ?_, by simp, ?_⟩
    · have hstep : step t = .next (pushByte b { t with incoming := rest, returned := none }) := step_op rfl hin
      rw [List.length_append, List.length_singleton, Nat.add_assoc, hrun, Nat.add_comm 1 k, run_succ_of_step k hstep]
    · rw [pushByte_returned]
      exact (hfill.port rest none).push b

end Sys2Proof.Machine

open Sys2Proof Sys2Proof.Machine

/-- Settles O32: the pushes one by one, each at the next index until six are there. -/
theorem pushesFillBuffer : Obligations.PushesFillBuffer := by
  intro bs s hrxcnt hovf
  obtain ⟨t, ht, hfill⟩ := execAll_pushes bs hrxcnt hovf
  exact ⟨t, ht, hfill.frame, hfill.rxcnt, hfill.ovf, hfill.buf⟩

/-- Settles O51: the six pushes give a frame of two valid groups, which READ_TH commits and converts (O36). -/
theorem validReplyIsReadAndConverted : Obligations.ValidReplyIsReadAndConverted := by
  intro s a b c d hen hrxcnt hovf
  obtain ⟨t, ht, hfill⟩ := execAll_pushes [a, b, crc8 a b, c, d, crc8 c d] hrxcnt hovf
  have h0 : t.buf[0] = a := hfill.buf 0
  have h1 : t.buf[1] = b := hfill.buf 1
  have h2 : t.buf[2] = crc8 a b := hfill.buf 2
  have h3 : t.buf[3] = c := hfill.buf 3
  have h4 : t.buf[4] = d := hfill.buf 4
  have h5 : t.buf[5] = crc8 c d := hfill.buf 5
  have hten : t.en = true := hfill.en.trans hen
  have hmode : t.mode = s.mode := hfill.mode
  have hcrcOut : t.crcOut = s.crcOut := hfill.crcOut
  have hread := readTHResult.1 t hten hfill.ovf hfill.rxcnt (by rw [h0, h1, h2]) (by rw [h3, h4, h5])
  refine ⟨_, (execAll_append _ .readTH ht).trans hread, ?_, ?_, sext32_tnum_toInt _, sext32_tmilli_toInt _,
    sext32_hnum_toInt _, sext32_hmilli_toInt _, rfl, rfl, rfl, hten, hmode, hcrcOut⟩
  · rw [append_toNat, h0, h1]
  · rw [append_toNat, h3, h4]

/-- Settles O52: the three pushes give OPEN a frame of one group, which its check accepts or reports (O37), and the read
of ERR shows which. -/
theorem bootOpensOnValidProbe : Obligations.BootOpensOnValidProbe := by
  intro s rest b0 b1 b2 hen hrxcnt hovf hs
  obtain ⟨t, hrun, hin, hfill⟩ := run_pushes [b0, b1, b2] hrxcnt hovf hs
  have h0 : t.buf[0] = b0 := hfill.buf 0
  have h1 : t.buf[1] = b1 := hfill.buf 1
  have h2 : t.buf[2] = b2 := hfill.buf 2
  have hten : t.en = false := hfill.en.trans hen
  have hmode : t.mode = s.mode := hfill.mode
  have hword0 : t.word0 = s.word0 := hfill.word0
  by_cases hcrc : crc8 b0 b1 = b2
  · have hgood := openResult.1 { t with incoming := (AsmLine.rd .err).event :: rest, returned := none } hten hfill.ovf
      hfill.rxcnt (by simp only [h0, h1, h2, hcrc])
    refine ⟨_, (hrun 2).trans (run_op_rd rfl hin hgood), rfl, rfl, rfl,
      fun _ => ⟨rfl, rfl, ?_, congrArg some errCode_zero_toWord⟩, fun hne => absurd hcrc hne⟩
    simp only [h0, h1]
  · have hbad := openResult.2.2.2.1 { t with incoming := (AsmLine.rd .err).event :: rest, returned := none } hten
      hfill.ovf hfill.rxcnt (by simpa only [h0, h1, h2] using hcrc)
    refine ⟨_, (hrun 2).trans (run_op_rd rfl hin hbad), rfl, rfl, rfl, fun h => absurd h hcrc,
      fun _ => ⟨hten, hmode, hword0, ?_⟩⟩
    simp only [readReg, h0, h1, h2, errIntegrity_toWord]

end

section
/-! PROOFS. The platform (60_exceptions.md): the placement of one block, and several side by side. -/

namespace Sys2Proof.Machine

/-- What an access of a placed block answers is what the access at the offset answers, its state put back in place. -/
def Placed.lift (p : Placed) : Host.Outcome State Fault Refusal → Host.Outcome Placed Fault Refusal
  | .next s => .next { p with block := s }
  | .fault f => .fault f
  | .refused r => .refused r

section
variable {p : Placed} {dir : Direction} {width : AccessWidth} {addr : Nat}

theorem Placed.lift_eq_next_iff {o : Host.Outcome State Fault Refusal} {q : Placed} :
    p.lift o = .next q ↔ ∃ t, o = .next t ∧ q = { p with block := t } := by
  cases o <;> simp [Placed.lift, eq_comm]

theorem Placed.lift_eq_refused_iff {o : Host.Outcome State Fault Refusal} {r : Refusal} :
    p.lift o = .refused r ↔ o = .refused r := by
  cases o <;> simp [Placed.lift]

theorem Placed.accessAt_of_lt (h : addr < p.base) : p.accessAt dir width addr = .refused .outOfRangeAccess := by
  simp [Placed.accessAt, h]

/-- At or above the base the access is the one at the address less the base (R231). -/
theorem Placed.accessAt_of_le (h : p.base ≤ addr) :
    p.accessAt dir width addr =
      p.lift (performAccess { dir := dir, offset := addr - p.base, width := width } p.block) := by
  rw [Placed.accessAt, if_neg (Nat.not_lt.2 h)]
  rfl

theorem Placed.base_le_of_covers (h : p.covers addr = true) : p.base ≤ addr := by
  simp only [Placed.covers, Bool.and_eq_true, decide_eq_true_eq] at h
  exact h.1

/-- The first block of a platform answers, or the others do and it is unchanged (log 10). -/
theorem platformAccess_cons_cases {ps qs : List Placed} (h : platformAccess dir width addr (p :: ps) = .next qs) :
    (p.covers addr = true ∧ ∃ p', p.accessAt dir width addr = .next p' ∧ qs = p' :: ps) ∨
    (p.covers addr = false ∧ ∃ ps', platformAccess dir width addr ps = .next ps' ∧ qs = p :: ps') := by
  unfold platformAccess at h
  cases hc : p.covers addr with
  | true =>
    rw [if_pos hc] at h
    cases ha : p.accessAt dir width addr with
    | next p' => rw [ha] at h; exact .inl ⟨rfl, p', rfl, (Host.Outcome.next.inj h).symm⟩
    | fault f => cases f
    | refused r => rw [ha] at h; cases h
  | false =>
    rw [if_neg (by simp [hc])] at h
    cases ha : platformAccess dir width addr ps with
    | next ps' => rw [ha] at h; exact .inr ⟨rfl, ps', rfl, (Host.Outcome.next.inj h).symm⟩
    | fault f => cases f
    | refused r => rw [ha] at h; cases h

end

end Sys2Proof.Machine

open Sys2Proof Sys2Proof.Machine

/-- Settles O58: at and above the base the access is the one at the offset, below it is refused. -/
theorem placementDoesNotMatter : Obligations.PlacementDoesNotMatter := by
  refine ⟨fun base off dir width s => ?_, fun _ _ _ _ => rfl, fun _ _ _ _ => Placed.accessAt_of_lt⟩
  rw [Placed.accessAt_of_le (Nat.le_add_right base off), Nat.add_sub_cancel_left]
  exact ⟨fun _ => Placed.lift_eq_next_iff, fun _ => Placed.lift_eq_refused_iff⟩

/-- Settles O59: by induction on the blocks, the first that covers the address performs the access and the rest stay. -/
theorem blocksAreIndependent : Obligations.BlocksAreIndependent := by
  intro dir width addr ps
  induction ps with
  | nil => exact fun qs h => nomatch h
  | cons p ps ih =>
    intro qs h
    obtain ⟨hc, p', hp, rfl⟩ | ⟨hc, ps', hps, rfl⟩ := platformAccess_cons_cases h
    · rw [Placed.accessAt_of_le (Placed.base_le_of_covers hc), Placed.lift_eq_next_iff] at hp
      obtain ⟨t, ht, rfl⟩ := hp
      exact ⟨[], p, ps, t, rfl, rfl, nofun, hc, ht⟩
    · obtain ⟨before, q, after, t, rfl, rfl, hbefore, hq, ht⟩ := ih ps' hps
      exact ⟨p :: before, q, after, t, rfl, rfl, List.forall_mem_cons.2 ⟨hc, hbefore⟩, hq, ht⟩

end
